-- ==== Sys2Proof/Word.lean ====
section
/-! DEFINITION. The byte of the line ring, and the two-of-a-kind container used for the part's two stations. -/

namespace Sys2Proof

/-- One byte of a frame or of the configuration image. -/
abbrev Byte := BitVec 8

/-- A node of the ring is named by one byte (0..63, or 255 for all nodes). -/
abbrev byteOf (n : Nat) : Byte := BitVec.ofNat 8 n

end Sys2Proof
end

