-- ==== Sys2Proof/Syntax.lean ====
section
/-! DEFINITION. The commands of the part: one constructor of `Instr` per row of spec/opcode_table.json, with the
operands the row's step needs. A command is one whole and indivisible step of spec/95_what_each_step_holds.md. -/

namespace Sys2Proof

/-- The two press stations; 0 is station A and 1 is station B throughout (R21). -/
inductive Station where
  | a | b
  deriving DecidableEq, Repr, Inhabited

/-- The two ring ports (R2). -/
inductive Port where
  | inp | out
  deriving DecidableEq, Repr

/-- What disturbs the clean time of a port in TRAINING (R2): an invalid symbol, a moment without signal, or, for IN
alone, a valid symbol other than idle. -/
inductive Disturbance where
  | invalidSymbol | noSignal | nonIdleSymbol
  deriving DecidableEq, Repr

/-- A frame as it ends at IN (R5): the bytes received between its delimiters, and whether it was cut short by an idle,
an invalid or another start symbol instead of reaching its end symbol. -/
structure RxFrame where
  bytes : List Byte
  cutShort : Bool
  deriving DecidableEq, Repr

/-- Who asks, and the tag the reply copies (R24). -/
structure Sender where
  src : Byte
  tag : Byte
  deriving DecidableEq, Repr

/-- A request as the request queue holds it (R182): the source node and the MGMT payload. -/
structure Request where
  src : Byte
  payload : List Byte
  deriving DecidableEq, Repr

/-- The commands. A request command is the take of that request by the Management Agent (R182); its `body` is the
request body of R184 after tag and code, of whatever length arrived. -/
inductive Instr where
  -- reset and link
  | powerOn
  | linkSignalPresent (p : Port) (valid : Bool)
  | linkTrainingDisturbed (p : Port) (d : Disturbance)
  | linkCleanTimeExpiry (p : Port)
  | linkTrainingSignalLoss (p : Port)
  | linkLoss (p : Port) (signal : Bool)
  -- frames
  | frameReceived (f : RxFrame)
  | frameTransmitComplete
  | eventFrameJoin
  | partFrameJoin
  | sampleEntryStale (i : Fin 96)
  -- requests
  | shortRequestDiscard (src : Byte) (payload : List Byte)
  | unknownRequest (q : Sender) (code : Byte) (body : List Byte)
  | readId (q : Sender) (body : List Byte)
  | tableWrite (q : Sender) (body : List Byte)
  | tableRead (q : Sender) (body : List Byte)
  | bindRecipe (q : Sender) (station arg : Byte)
  | wake (q : Sender) (station arg : Byte)
  | standby (q : Sender) (station arg : Byte)
  | off (q : Sender) (station arg : Byte)
  | produce (q : Sender) (station arg : Byte)
  | stop (q : Sender) (station arg : Byte)
  | abortCycle (q : Sender) (station arg : Byte)
  | zoneRecover (q : Sender) (station arg : Byte)
  | demouldRelease (q : Sender) (station arg : Byte)
  | demouldReset (q : Sender) (station arg : Byte)
  | tare (q : Sender) (station : Byte)
  | zero (q : Sender) (station : Byte)
  | cancel (q : Sender) (station : Byte)
  | readStatus (q : Sender) (body : List Byte)
  | readCounters (q : Sender)
  | readCountersClear (q : Sender)
  | readConditions (q : Sender) (body : List Byte)
  | clearConditions (q : Sender) (body : List Byte)
  | setMask (q : Sender) (body : List Byte)
  | forceCondition (q : Sender) (body : List Byte)
  | setRecordBase (q : Sender) (body : List Byte)
  | setTime (q : Sender) (body : List Byte)
  | historySummary (q : Sender) (body : List Byte)
  | collect (q : Sender) (body : List Byte)
  | release (q : Sender) (body : List Byte)
  | storeImage (q : Sender) (body : List Byte)
  | restart (q : Sender)
  | restartForce (q : Sender)
  -- configuration memory
  | imageLoadComplete (answers : Bool)
  | imageStoreEnd (completed : Bool)
  -- timers
  | settleTimerExpiry (st : Station)
  | cureAccrualComplete (st : Station)
  | maximumCureTimeExpiry (st : Station)
  | outOfBandAllowanceExceeded (st : Station)
  | permitRefreshExpiry (st : Station)
  | regulationEvent (z : Fin 32)
  | blindHoldExpiry (z : Fin 32)
  | budgetPeriodExpiry
  | stableDwellExpiry
  | loadingTimerExpiry
  | stepTimerExpiry (st : Station)
  | dwellTimerExpiry (st : Station)
  deriving DecidableEq, Repr

end Sys2Proof
end

