-- ==== Sys2Proof/Config.lean ====
section
/-! DEFINITION. What one 4820 fixes for good (capacities, codes, identification) and the one FREE VALUE of the model. -/

namespace Sys2Proof.Config

open Sys2Proof

/-- Capacity of the forward queue in frames (R9). -/
abbrev forwardCapacity : Nat := 4
/-- Largest consecutive-forward count (R11). -/
abbrev forwardRun : Nat := 4
/-- Capacity of the info queue in frames (R17). -/
abbrev infoCapacity : Nat := 16
/-- A PART frame joins only while the info queue holds fewer frames than this (R18). -/
abbrev partRoom : Nat := 12
/-- Capacity of the request queue (R182). -/
abbrev requestCapacity : Nat := 4
/-- Drive nodes that enabled zones may name between them (R46). -/
abbrev driveNodes : Nat := 6
/-- Saturation value of a port counter (R19). -/
abbrev counterMax : Nat := 65535
/-- Saturation value of a millisecond count that a record carries in 4 bytes (R73, R76, R166). -/
abbrev longMax : Nat := 4294967295
/-- Hops of every frame the part originates (R10). -/
abbrev ownHops : Nat := 64
/-- Own node address until an image load gives another (R8). -/
abbrev resetAddress : Nat := 63
/-- Vendor code, part code and revision that READ_ID returns (R184). -/
abbrev vendorCode : Nat := 0x2A7
abbrev partCode : Nat := 0x4820
abbrev revision : Nat := 3
/-- The signature of a valid configuration image (R190). -/
abbrev imageSignature : Nat := 0xA55A
/-- Bytes of a configuration image (R190). -/
abbrev imageBytes : Nat := 3314
/-- Clean time that takes a TRAINING port to UP, in ms (R2). -/
abbrev cleanMs : Nat := 2

/-- FREE VALUE (no body: nothing can be proved of it). The spec says of an event at which both stations take the
cycle-open test only that 'the open taken first' takes the last FREE slot (R68), and leaves open which that is.
The `n`-th such event of a run takes station `stationFirst n` first. Log entry 7. -/
opaque stationFirst : Nat → Station

end Sys2Proof.Config
end

