-- ==== Sys2Proof/Machine/Types.lean ====
section
/-! DEFINITION. The state of each block of the part as plain data, block by block as spec/00_scope.md lists them, and
`Block`, all of them together. Each structure cites the rule that gives its fields. -/

namespace Sys2Proof.Machine

open Sys2Proof

/-- One value for each of the two stations. -/
structure Pair (α : Type) where
  a : α
  b : α
  deriving DecidableEq, Repr

/-- A running timer: the milliseconds counted and the length at which it expires. -/
structure Run where
  elapsed : Nat
  length : Nat
  deriving DecidableEq, Repr

/-- A timer is stopped (`none`) or running. -/
abbrev Timer := Option Run

/-! ### Ring Port Unit (chapter 1) -/

/-- Link states (R2). -/
inductive Link where
  | down | training | up
  deriving DecidableEq, Repr

/-- What a link-status report says (R1): nothing received, a signal without valid symbols, valid symbols. -/
inductive Reception where
  | noSignal | signal | clean
  deriving DecidableEq, Repr

/-- One port: link state, the evidence it is judged by (for IN the part's own reception, which the reverse channel
reports, R1; for OUT the reverse status received), and the clean-time count in ms (R2). -/
structure PortState where
  link : Link
  reception : Reception
  cleanTime : Nat
  deriving DecidableEq, Repr

/-- The nine port counters in the order of R19. -/
structure Counters where
  crcErr : Nat
  returned : Nat
  hopExpired : Nat
  wrongKind : Nat
  fwdDrop : Nat
  disconnect : Nat
  reqDrop : Nat
  rxFrames : Nat
  txFrames : Nat
  deriving DecidableEq, Repr

/-- A whole frame without its length field and frame check, which follow from it (R5, R21). -/
structure Frame where
  dest : Byte
  src : Byte
  kind : Byte
  hops : Byte
  payload : List Byte
  deriving DecidableEq, Repr

/-- One channel's duty in a DRIVE frame (R23). -/
structure DriveEntry where
  channel : Nat
  duty : Nat
  deriving DecidableEq, Repr

/-- The four fields of a STROKE order after the station; mask 0 is a stop order (R23, R148). -/
structure StrokeOrder where
  mask : BitVec 8
  target : Nat
  ceiling : Nat
  speed : Nat
  deriving DecidableEq, Repr

/-- WEIGH notices with the codes of R23. -/
inductive Notice where
  | clearScale | nearTarget | accepted | rejected | discard
  deriving DecidableEq, Repr

/-- WEIGH causes with the codes of R23. -/
inductive WeighCause where
  | none | under | over | timeout
  deriving DecidableEq, Repr

/-- The contents of a WEIGH frame (R23). -/
structure WeighNotice where
  station : Station
  notice : Notice
  attempt : Nat
  cause : WeighCause
  weight : Int
  deriving DecidableEq, Repr

/-- A frame of the control queue, with the destination it was posted with (R12 to R16). -/
inductive ControlFrame where
  | drive (node : Nat) (entries : List DriveEntry)
  | permit (st : Station) (dest : Nat) (closeOk openOk : Bool) (record : Nat)
  | stroke (st : Station) (dest : Nat) (order : StrokeOrder)
  | weigh (dest : Nat) (n : WeighNotice)
  deriving DecidableEq, Repr

/-- A frame of the info queue: destination, kind code and payload (R17). -/
structure InfoFrame where
  dest : Byte
  kind : Byte
  payload : List Byte
  deriving DecidableEq, Repr

/-- The RPU (table at the head of chapter 1, R8, R10). `onLine` is the frame whose transmission at OUT has begun, as
its bytes between the delimiters; `ownAddress` is the own address in force. -/
structure Rpu where
  inPort : PortState
  outPort : PortState
  forwardQ : List Frame
  controlQ : List ControlFrame
  infoQ : List InfoFrame
  forwardCount : Nat
  counters : Counters
  onLine : Option (List Byte)
  ownAddress : Nat
  deriving DecidableEq, Repr

/-! ### Sample Classifier (chapter 2) -/

/-- The two thermocouple slots of a zone (R26). -/
inductive Slot where
  | zero | one
  deriving DecidableEq, Repr

/-- Station signals with the item codes of R26. -/
inductive Signal where
  | closed | opened | tonnage | hold | ejectPos | ejectForce
  deriving DecidableEq, Repr

/-- The target of a Sample Map entry in use (R26, R27). -/
inductive Target where
  | zoneSensor (z : Fin 32) (slot : Slot)
  | scaleRaw
  | scaleDone
  | stationSignal (st : Station) (sig : Signal)
  deriving DecidableEq, Repr

/-- The configured fields of an entry in use (R26). -/
structure MapConfig where
  node : Nat
  channel : Nat
  target : Target
  freshLimit : Nat
  jumpLimit : Nat
  deriving DecidableEq, Repr

/-- Freshness of a held reading (R31). -/
inductive Freshness where
  | never | fresh | stale
  deriving DecidableEq, Repr

/-- A Sample Map entry: its configuration, `none` when empty (R26), and the five fields of live state of R31. -/
structure MapEntry where
  config : Option MapConfig
  freshness : Freshness
  held : Int
  quality : Nat
  age : Nat
  jumps : Nat
  deriving DecidableEq, Repr

/-! ### Tables (chapter 3) -/

/-- Upper or lower platen (R45). -/
inductive Platen where
  | upper | lower
  deriving DecidableEq, Repr

/-- A Zone Table entry (R45). -/
structure ZoneEntry where
  enabled : Bool
  station : Station
  platen : Platen
  driveNode : Nat
  driveChannel : Nat
  ratedPower : Nat
  codeN : Nat
  codeM : Nat
  kp : Nat
  ki : Nat
  ff : Nat
  dutyCeiling : Nat
  slew : Nat
  rampStep : Nat
  offset : Int
  standbySetpoint : Nat
  overtempLimit : Nat
  scanWindow : Nat
  switchMargin : Nat
  blindCap : Nat
  blindHold : Nat
  deriving DecidableEq, Repr

/-- A Recipe Table entry (R48). -/
structure Recipe where
  revision : Nat
  upper : Nat
  lower : Nat
  width : Nat
  settle : Nat
  cure : Nat
  maxCure : Nat
  minTonnage : Nat
  target : Nat
  tolLow : Nat
  tolHigh : Nat
  early : Nat
  maxAttempts : Nat
  maxWait : Nat
  allowance : Nat
  firstStep : Fin 64
  maxRetries : Nat
  scanEnable : Bool
  scanForce : Nat
  scanTravel : Nat
  deriving DecidableEq, Repr

/-- What a cycle's step list keeps of a Step Table entry (R57). -/
structure StepCopy where
  mask : BitVec 8
  target : Nat
  ceiling : Nat
  speed : Nat
  dwell : Nat
  timeout : Nat
  deriving DecidableEq, Repr

/-- A Step Table entry (R50); `next` is `none` for END. -/
structure StepEntry where
  used : Bool
  copy : StepCopy
  next : Option (Fin 64)
  deriving DecidableEq, Repr

/-- A Station Table entry (R53). -/
structure StationEntry where
  pressNode : Nat
  ejectorNode : Nat
  refresh : Nat
  tolerance : Nat
  deriving DecidableEq, Repr

/-- The Line Settings record (R54). -/
structure LineSettings where
  own : Nat
  master : Nat
  robot : Nat
  cap : Nat
  headroom : Nat
  period : Nat
  restore : Nat
  zero : Int
  span : Nat
  capacity : Nat
  emptyLimit : Nat
  windowCode : Nat
  stableBand : Nat
  leaveBand : Nat
  dwellCode : Nat
  maxLoading : Nat
  watermark : Nat
  deriving DecidableEq, Repr

/-- The tables of chapter 3 and the Sample Map of chapter 2. -/
structure Tables where
  zones : Vector ZoneEntry 32
  recipes : Vector Recipe 16
  steps : Vector StepEntry 64
  stations : Pair StationEntry
  line : LineSettings
  map : Vector MapEntry 96
  deriving DecidableEq, Repr

/-! ### Station Controller (chapter 4) -/

/-- Station states with the codes of R59. -/
inductive StationState where
  | off | standby | preheat | ready | charging | pressLoad | curing | opening | demoulding | held
  deriving DecidableEq, Repr

/-- Causes of NO_CYCLE with the codes of R85 (R69). -/
inductive NoCycle where
  | none | historyFull | recordBaseUnset | recipeInvalid
  deriving DecidableEq, Repr

/-- The cycle context (R59): the open record's number, the snapshot (R57), the charge-wait timer (R71, R73), the
accrued and out-of-band times with whether each is advancing (R75, R76), the CURING elapsed timer (R74) and the peak
tonnage (R77). Times are in ms. `accrualUp` is the MODEL's own field: the millisecond that completes the cure time has
passed while the accrual ran, and the expiry that R75 makes of it is due but not yet taken (log 34). -/
structure Cycle where
  record : Nat
  recipeIndex : Fin 16
  recipe : Recipe
  steps : List StepCopy
  waitRunning : Bool
  chargeWait : Nat
  accruing : Bool
  accrued : Nat
  accrualUp : Bool
  outCounting : Bool
  outOfBand : Nat
  elapsedRunning : Bool
  elapsed : Nat
  peakTonnage : Nat
  deriving DecidableEq, Repr

/-- One Station Controller (R59), with the NO_CYCLE cause of R69. `inBand` is the zone in-band record. -/
structure Stc where
  state : StationState
  bound : Option (Fin 16)
  production : Bool
  deferredWake : Bool
  inBand : Vector Bool 32
  settle : Timer
  heatReady : Bool
  closeOk : Bool
  openOk : Bool
  refresh : Timer
  noCycle : NoCycle
  cycle : Option Cycle
  deriving DecidableEq, Repr

/-! ### Zone Regulator (chapter 5) -/

/-- Zone states with the codes of R86. -/
inductive ZoneState where
  | disabled | off | regulating | blind | fault
  deriving DecidableEq, Repr

/-- Zone fault causes with the codes of R86. -/
inductive ZoneCause where
  | none | overtemp | sensorLost
  deriving DecidableEq, Repr

/-- One zone context (R86). `windowMargin` is the switch margin of the window in progress (R47, R93). -/
structure Zone where
  state : ZoneState
  cause : ZoneCause
  wsp : Int
  iq : Int
  r : Nat
  g : Nat
  blindBase : Nat
  blindHold : Timer
  slot : Slot
  faults0 : Nat
  faults1 : Nat
  windowPos : Nat
  windowLen : Nat
  windowMargin : Nat
  timer : Timer
  inBand : Bool
  lastTarget : Int
  deriving DecidableEq, Repr

/-- The platen summary markers of one station: whether each has been started (R107). -/
structure Markers where
  upper : Bool
  lower : Bool
  deriving DecidableEq, Repr

/-- The Zone Regulator: 32 contexts and the summary markers of both stations. -/
structure Zrg where
  zones : Vector Zone 32
  markers : Pair Markers
  deriving DecidableEq, Repr

/-! ### Power Allocator (chapter 6) -/

/-- One value for each of the three budget classes (R109). -/
structure ByClass where
  c0 : Nat
  c1 : Nat
  c2 : Nat
  deriving DecidableEq, Repr

/-- The Power Allocator (R109). -/
structure Pwa where
  allowance : Vector Nat 32
  factor : ByClass
  load : ByClass
  capacity : Nat
  allowanceLoad : Nat
  pressure : Bool
  timer : Timer
  deriving DecidableEq, Repr

/-! ### Scale Unit (chapter 7) -/

/-- One entry of the reading window (R123). -/
structure Reading where
  raw : Int
  net : Int
  deriving DecidableEq, Repr

/-- Session states with the codes of R135. -/
inductive SessionState where
  | clearing | loading | settling | accepted | rejected
  deriving DecidableEq, Repr

/-- The weighing session (R135). -/
structure Session where
  owner : Station
  state : SessionState
  attempts : Nat
  target : Nat
  tolLow : Nat
  tolHigh : Nat
  early : Nat
  maxAttempts : Nat
  nearSent : Bool
  clearSent : Bool
  deriving DecidableEq, Repr

/-- The charge accepted for a station (R123, R141). -/
structure Accepted where
  weight : Int
  attempts : Nat
  deriving DecidableEq, Repr

/-- The Scale Unit (R123). -/
structure Scu where
  tare : Int
  latestGross : Option Int
  window : List Reading
  stable : Bool
  overload : Bool
  claims : List Station
  session : Option Session
  dwell : Timer
  loading : Timer
  accepted : Pair (Option Accepted)
  deriving DecidableEq, Repr

/-! ### Demould Sequencer (chapter 8) -/

/-- Sequencer states with the codes of R147. -/
inductive SeqState where
  | idle | stroking | dwell | retracting | probing | paused | halted | homing | done
  deriving DecidableEq, Repr

/-- Halt causes with the codes of R147. -/
inductive HaltCause where
  | none | stall | stallUnlocated | retractStall | timeout | sensor | abort | homeStall
  deriving DecidableEq, Repr

/-- Probe phases (R147); the codes are those of the flags byte of R167. -/
inductive ProbePhase where
  | none | out | back | rest
  deriving DecidableEq, Repr

/-- Resume actions (R147); the codes are those of the flags byte of R167. -/
inductive Resume where
  | none | step | probe | homing
  deriving DecidableEq, Repr

/-- One Demould Sequencer (R147). `retractPos` is `none` while not taken; `clock` is `none` while stopped. -/
structure Dms where
  state : SeqState
  stepPos : Nat
  mask : BitVec 8
  retries : Nat
  retractPos : Option Nat
  scanFollows : Bool
  probeGroup : Option Nat
  probePhase : ProbePhase
  probeStuck : BitVec 8
  cause : HaltCause
  stuck : BitVec 8
  resume : Resume
  abortPending : Bool
  order : Option StrokeOrder
  stepTimer : Timer
  dwellTimer : Timer
  clock : Option Nat
  deriving DecidableEq, Repr

/-! ### History Store (chapter 9) -/

/-- A time stamp: line time in seconds and milliseconds (R172). -/
structure Stamp where
  sec : Nat
  ms : Nat
  deriving DecidableEq, Repr

/-- Charge status with the codes of R25. -/
inductive ChargeStatus where
  | pending | accepted | rejected | cancelled
  deriving DecidableEq, Repr

/-- The charge part of a record (R25, R145); the wait is in ms. -/
structure ChargePart where
  attempts : Nat
  status : ChargeStatus
  weight : Int
  wait : Nat
  deriving DecidableEq, Repr

/-- The cure part of a record (R25); the two times are in 0.1 s. -/
structure CurePart where
  accrued : Nat
  outOfBand : Nat
  upperMin : Int
  upperMax : Int
  lowerMin : Int
  lowerMax : Int
  peakTonnage : Nat
  deriving DecidableEq, Repr

/-- The demould part of a record (R25, R166); the duration is in ms. -/
structure DemouldPart where
  completed : Nat
  skipped : Nat
  retries : Nat
  stalls : Nat
  stuckUnion : BitVec 8
  peakForce : Nat
  duration : Nat
  deriving DecidableEq, Repr

/-- Verdicts with the codes of R25. -/
inductive Verdict where
  | good | suspect | reject | aborted
  deriving DecidableEq, Repr

/-- Record flags with the bit numbers of R25. -/
inductive RecFlag where
  | aborted | heatFault | cureIncomplete | earlyOpen | unpermittedClose
  | demouldIncomplete | outOfBand | chargeAged | demouldRetried | sensorSwitched
  deriving DecidableEq, Repr

/-- A history record (R25, R174). An optional part is `some` exactly when its presence bit is set. -/
structure Record where
  number : Nat
  station : Station
  recipeIndex : Fin 16
  revision : Nat
  verdict : Verdict
  flags : BitVec 16
  openedAt : Option Stamp
  closedAt : Option Stamp
  charge : Option ChargePart
  weighedAt : Option Stamp
  cure : Option CurePart
  demould : Option DemouldPart
  deriving DecidableEq, Repr

/-- State of a slot that holds a record (R169). -/
inductive Holding where
  | opened | closed | sent
  deriving DecidableEq, Repr

/-- A history slot: FREE, or holding one record (R168). -/
inductive HistorySlot where
  | free
  | held (h : Holding) (r : Record)
  deriving DecidableEq, Repr

/-- A collection in progress (R176). -/
structure Collection where
  selection : List Nat
  requester : Sender
  placed : Nat
  first : Nat
  last : Nat
  deriving DecidableEq, Repr

/-- The History Store (R168). `order` is the record order as slot indices, oldest first; the counter is `none` while
UNSET and the line time is `none` while invalid. -/
structure Hst where
  slots : Vector HistorySlot 48
  order : List (Fin 48)
  counter : Option Nat
  lineTime : Option Stamp
  collection : Option Collection
  deriving DecidableEq, Repr

/-! ### Condition Unit and Management Agent (chapter 10) -/

/-- The conditions of R187. -/
inductive Cond where
  | stationHeld (st : Station)
  | cycleClosed (st : Station)
  | heatFault (st : Station)
  | noCycle (st : Station)
  | chargeAgedSeen (st : Station)
  | budgetPressure
  | scaleOverload
  | chargeRejected
  | historyHigh
  | historyFull
  | portInDown
  | portOutDown
  | frameErrors
  | queueDrop
  | sensorStale
  | recordBaseUnset
  | imageInvalid
  | imageStored
  deriving DecidableEq, Repr

/-- The Condition Unit (R187, R189): three sets of 23 bits, condition k at bit k, and the EVENT gate. -/
structure Cdu where
  present : BitVec 23
  latched : BitVec 23
  mask : BitVec 23
  gateOpen : Bool
  deriving DecidableEq, Repr

/-- Image states (R190, R191). -/
inductive ImageState where
  | loading | ready | storing
  deriving DecidableEq, Repr

/-- The configuration memory as a load finds it: without a valid signature, or holding these bytes (R190, R191). -/
inductive ConfigMemory where
  | unsigned
  | image (bytes : List Byte)
  deriving DecidableEq, Repr

/-- The Management Agent: request queue and image state (chapter 10), with the copy a store writes (R191) and the
external configuration memory it writes to. -/
structure Mga where
  requests : List Request
  image : ImageState
  storeCopy : List Byte
  memory : ConfigMemory
  deriving DecidableEq, Repr

/-! ### The part -/

/-- All blocks of the part. `choices` is the MODEL's own field: how many times the free value `Config.stationFirst`
has been consulted. -/
structure Block where
  rpu : Rpu
  tab : Tables
  stc : Pair Stc
  zrg : Zrg
  pwa : Pwa
  scu : Scu
  dms : Pair Dms
  hst : Hst
  cdu : Cdu
  mga : Mga
  choices : Nat
  deriving DecidableEq, Repr

end Sys2Proof.Machine
end

