-- ==== Sys2Proof/Machine/Defaults.lean ====
section
/-! DEFINITION. The default table contents of R44 and every block at its reset value. -/

namespace Sys2Proof.Machine

open Sys2Proof

/-- Default Zone Table entry (R44). -/
def defaultZoneEntry : ZoneEntry :=
  { enabled := false, station := .a, platen := .upper, driveNode := 0, driveChannel := 0, ratedPower := 0
    codeN := 0, codeM := 0, kp := 0, ki := 0, ff := 0, dutyCeiling := 0, slew := 1, rampStep := 1, offset := 0
    standbySetpoint := 0, overtempLimit := 0, scanWindow := 16, switchMargin := 1, blindCap := 0, blindHold := 1 }

/-- Default Recipe Table entry (R44). -/
def defaultRecipe : Recipe :=
  { revision := 0, upper := 0, lower := 0, width := 1, settle := 1, cure := 1, maxCure := 1, minTonnage := 0
    target := 1, tolLow := 0, tolHigh := 0, early := 500, maxAttempts := 1, maxWait := 1, allowance := 0
    firstStep := 0, maxRetries := 0, scanEnable := false, scanForce := 10, scanTravel := 1 }

/-- Default Step Table entry (R44). -/
def defaultStep : StepEntry :=
  { used := false, copy := { mask := 1, target := 0, ceiling := 1, speed := 0, dwell := 0, timeout := 100 }
    next := none }

/-- Default Station Table entry (R44). -/
def defaultStationEntry : StationEntry :=
  { pressNode := 0, ejectorNode := 0, refresh := 1000, tolerance := 1 }

/-- Default Line Settings (R44). -/
def defaultLine : LineSettings :=
  { own := 63, master := 255, robot := 0, cap := 0, headroom := 0, period := 1000, restore := 90, zero := 0
    span := 65536, capacity := 500000, emptyLimit := 0, windowCode := 0, stableBand := 1, leaveBand := 1
    dwellCode := 0, maxLoading := 5, watermark := 48 }

/-- A Sample Map entry in NEVER with the given configuration (R30, R31). -/
def neverEntry (c : Option MapConfig) : MapEntry :=
  { config := c, freshness := .never, held := 0, quality := 4, age := 0, jumps := 0 }

/-- Every table at its default contents and the map empty (R26, R44). -/
def defaultTables : Tables :=
  { zones := Vector.replicate 32 defaultZoneEntry, recipes := Vector.replicate 16 defaultRecipe
    steps := Vector.replicate 64 defaultStep, stations := { a := defaultStationEntry, b := defaultStationEntry }
    line := defaultLine, map := Vector.replicate 96 (neverEntry none) }

/-- A Station Controller after reset (R59). -/
def resetStc : Stc :=
  { state := .off, bound := none, production := false, deferredWake := false
    inBand := Vector.replicate 32 false, settle := none, heatReady := false, closeOk := false, openOk := false
    refresh := none, noCycle := .none, cycle := none }

/-- A zone context at the reset values of R86, in the given state and with its window opened from the given entry. -/
def resetZone (st : ZoneState) (e : ZoneEntry) : Zone :=
  { state := st, cause := .none, wsp := 0, iq := 0, r := 0, g := 0, blindBase := 0, blindHold := none
    slot := .zero, faults0 := 0, faults1 := 0, windowPos := 0, windowLen := e.scanWindow
    windowMargin := e.switchMargin, timer := none, inBand := false, lastTarget := 0 }

/-- The Zone Regulator after reset (R86, R107). -/
def resetZrg : Zrg :=
  { zones := Vector.replicate 32 (resetZone .disabled defaultZoneEntry)
    markers := { a := { upper := false, lower := false }, b := { upper := false, lower := false } } }

/-- The Power Allocator after reset (R109). -/
def resetPwa : Pwa :=
  { allowance := Vector.replicate 32 0, factor := { c0 := 0, c1 := 0, c2 := 0 }
    load := { c0 := 0, c1 := 0, c2 := 0 }, capacity := 0, allowanceLoad := 0, pressure := false, timer := none }

/-- The Scale Unit after reset (R123). -/
def resetScu : Scu :=
  { tare := 0, latestGross := none, window := [], stable := false, overload := false, claims := []
    session := none, dwell := none, loading := none, accepted := { a := none, b := none } }

/-- A Demould Sequencer after reset (R147). -/
def resetDms : Dms :=
  { state := .idle, stepPos := 0, mask := 0, retries := 0, retractPos := none, scanFollows := false
    probeGroup := none, probePhase := .none, probeStuck := 0, cause := .none, stuck := 0, resume := .none
    abortPending := false, order := none, stepTimer := none, dwellTimer := none, clock := none }

/-- The History Store after reset (R168). -/
def resetHst : Hst :=
  { slots := Vector.replicate 48 .free, order := [], counter := none, lineTime := none, collection := none }

/-- All port counters at 0 (R19). -/
def zeroCounters : Counters :=
  { crcErr := 0, returned := 0, hopExpired := 0, wrongKind := 0, fwdDrop := 0, disconnect := 0, reqDrop := 0
    rxFrames := 0, txFrames := 0 }

/-- A port after power-on (R2); the evidence is the model's choice (log 11). -/
def resetPort : PortState := { link := .down, reception := .noSignal, cleanTime := 0 }

/-- The RPU after power-on (R2, R8, R9, R11, R12, R17, R19). -/
def resetRpu : Rpu :=
  { inPort := resetPort, outPort := resetPort, forwardQ := [], controlQ := [], infoQ := [], forwardCount := 0
    counters := zeroCounters, onLine := none, ownAddress := Config.resetAddress }

/-- The level conditions present after a reset that finds the ports as given (R187): PORT_IN_DOWN is bit 15,
PORT_OUT_DOWN bit 16 and RECORD_BASE_UNSET bit 20. -/
def resetLevels (inLink outLink : Link) : BitVec 23 :=
  (if inLink = .up then 0#23 else 1#23 <<< 15) ||| (if outLink = .up then 0#23 else 1#23 <<< 16) |||
    (1#23 <<< 20)

/-- The Condition Unit after reset (R187, R189). -/
def resetCdu (levels : BitVec 23) : Cdu :=
  { present := levels, latched := levels, mask := BitVec.allOnes 23, gateOpen := true }

/-- All blocks after power-on with the configuration memory as given: every reset of the part but what RESTART
keeps (R192). -/
def powerOnBlock (memory : ConfigMemory) (choices : Nat) : Block :=
  { rpu := resetRpu, tab := defaultTables, stc := { a := resetStc, b := resetStc }, zrg := resetZrg
    pwa := resetPwa, scu := resetScu, dms := { a := resetDms, b := resetDms }, hst := resetHst
    cdu := resetCdu (resetLevels .down .down)
    mga := { requests := [], image := .loading, storeCopy := [], memory := memory }
    choices := choices }

end Sys2Proof.Machine
end

