-- ==== Sys2Proof/Machine/State.lean ====
section
/-! DEFINITION. The state of the machine: all blocks of the part (`Block`, Machine/Types.lean) and the queue of
commands that wait; the reasons a step can stop; the state after reset. -/

namespace Sys2Proof.Machine

open Sys2Proof

/-- The part and its waiting commands, first in first out. -/
structure State extends Block where
  pending : List Instr
  deriving DecidableEq, Repr

/-- No rule of the spec stops the part, so no meaning faults: the type has no constructor, and a step that answered a
fault could not be written. -/
inductive Fault where
  deriving DecidableEq, Repr

/-- Why a command may be refused. -/
inductive Refusal where
  /-- Raised by an arm of `exec` whose command has no meaning yet; safe (nothing is claimed of it). No arm raises it. -/
  | notModelled (mnemonic : String)
  deriving DecidableEq, Repr

/-- The machine right after power-on (R190): every block at its reset value, no command waiting. -/
def State.reset : State :=
  { toBlock := powerOnBlock .unsigned 0, pending := [] }

end Sys2Proof.Machine
end

