-- ==== Sys2Proof/Machine/Ops.lean ====
section
/-! DEFINITION. The named operations every block shares: vectors and pairs, byte order, the frame check, timers,
port counters, conditions, the posting rules of the control and info queues, the OUT arbiter, reads of the Sample Map
and writes into the open record. -/

namespace Sys2Proof.Machine

open Sys2Proof

/-! ### Containers -/

/-- Element `i` of a vector. -/
def vget {α : Type} {n : Nat} (v : Vector α n) (i : Fin n) : α := v[i.val]

/-- The vector with element `i` replaced. -/
def vset {α : Type} {n : Nat} (v : Vector α n) (i : Fin n) (x : α) : Vector α n := v.set i.val x i.isLt

/-- Every element transformed. -/
def vmap {α β : Type} {n : Nat} (f : α → β) (v : Vector α n) : Vector β n := Vector.ofFn fun i => f (vget v i)

/-- The value of a station. -/
def Pair.get {α : Type} (p : Pair α) : Station → α
  | .a => p.a
  | .b => p.b

/-- The pair with a station's value replaced. -/
def Pair.set {α : Type} (p : Pair α) (st : Station) (x : α) : Pair α :=
  match st with
  | .a => { p with a := x }
  | .b => { p with b := x }

/-- Station number (R21). -/
def stationNum : Station → Nat
  | .a => 0
  | .b => 1

/-- The station a number names, if any (R21). -/
def stationOf : Nat → Option Station
  | 0 => some .a
  | 1 => some .b
  | _ => none

/-- The other station. -/
def otherStation : Station → Station
  | .a => .b
  | .b => .a

/-! ### Byte order (least significant byte first) and numbers -/

/-- The unsigned number of bytes sent least significant first. -/
def leNat : List Byte → Nat
  | [] => 0
  | b :: bs => b.toNat + 256 * leNat bs

/-- `size` bytes of `n`, least significant first. -/
def leBytes : Nat → Nat → List Byte
  | 0, _ => []
  | size + 1, n => BitVec.ofNat 8 n :: leBytes size (n / 256)

/-- The two's complement reading of an unsigned number of `bits` bits. -/
def toSigned (bits n : Nat) : Int := if n < 2 ^ (bits - 1) then (n : Int) else (n : Int) - (2 ^ bits : Nat)

/-- The two's complement form, as an unsigned number of `bits` bits. -/
def ofSigned (bits : Nat) (x : Int) : Nat := (x % ((2 ^ bits : Nat) : Int)).toNat

/-- `size` bytes of a signed number, least significant first. -/
def leInt (size : Nat) (x : Int) : List Byte := leBytes size (ofSigned (8 * size) x)

/-- The unsigned field of `size` bytes at offset `at_`. -/
def field (bs : List Byte) (at_ size : Nat) : Nat := leNat ((bs.drop at_).take size)

/-- The signed field of `size` bytes at offset `at_`. -/
def fieldInt (bs : List Byte) (at_ size : Nat) : Int := toSigned (8 * size) (field bs at_ size)

/-- The manual's division by a positive divisor that is a power of two: floor of (x + d/2) / d (00_scope, Rounding). -/
def roundDiv (x : Int) (d : Nat) : Int := (x + (d / 2 : Nat)) / (d : Int)

/-! ### Frame check (R6) -/

/-- One shift of the check register. -/
def crcShift (r : BitVec 16) : BitVec 16 := if r.msb then (r <<< 1) ^^^ 0x1021#16 else r <<< 1

/-- One byte combined into the check register. -/
def crcByte (r : BitVec 16) (b : Byte) : BitVec 16 :=
  let x := r ^^^ (b.setWidth 16 <<< 8)
  crcShift (crcShift (crcShift (crcShift (crcShift (crcShift (crcShift (crcShift x)))))))

/-- The frame check of a string of bytes (R6). -/
def frameCheck (bs : List Byte) : BitVec 16 := bs.foldl crcByte 0xFFFF#16

/-- The bytes of a frame between its delimiters: header, payload, check low byte first (R5, R6, R21). -/
def frameBytes (f : Frame) : List Byte :=
  let body := [f.dest, f.src, f.kind, f.hops, BitVec.ofNat 8 f.payload.length] ++ f.payload
  body ++ leBytes 2 (frameCheck body).toNat

/-! ### Timers -/

/-- A timer started from zero with a length. -/
def startTimer (length : Nat) : Timer := some { elapsed := 0, length := length }

/-- A running timer that has reached its length. -/
def timerDue (t : Timer) : Bool := match t with
  | some r => decide (r.length ≤ r.elapsed)
  | none => false

/-- One millisecond of a timer; it stands at its length until its expiry is taken. -/
def tickTimer (t : Timer) : Timer := match t with
  | some r => some { r with elapsed := min (r.elapsed + 1) r.length }
  | none => none

/-! ### Block updates -/

/-- Change a station's controller. -/
def modStc (st : Station) (f : Stc → Stc) (s : Block) : Block := { s with stc := s.stc.set st (f (s.stc.get st)) }

/-- Change a station's sequencer. -/
def modDms (st : Station) (f : Dms → Dms) (s : Block) : Block := { s with dms := s.dms.set st (f (s.dms.get st)) }

/-- Change a zone's context. -/
def modZone (z : Fin 32) (f : Zone → Zone) (s : Block) : Block :=
  { s with zrg := { s.zrg with zones := vset s.zrg.zones z (f (vget s.zrg.zones z)) } }

/-- Change a station's cycle context, where there is one. -/
def modCycle (st : Station) (f : Cycle → Cycle) (s : Block) : Block :=
  modStc st (fun c => { c with cycle := c.cycle.map f }) s

/-- A zone's context. -/
def zoneOf (s : Block) (z : Fin 32) : Zone := vget s.zrg.zones z

/-- A zone's Zone Table entry. -/
def entryOf (s : Block) (z : Fin 32) : ZoneEntry := vget s.tab.zones z

/-- A station's controller. -/
def stcOf (s : Block) (st : Station) : Stc := s.stc.get st

/-- A station's sequencer. -/
def dmsOf (s : Block) (st : Station) : Dms := s.dms.get st

/-- All zones in ascending order. -/
def allZones : List (Fin 32) := List.finRange 32

/-- The enabled zones of a station, in ascending order. -/
def zonesOf (s : Block) (st : Station) : List (Fin 32) :=
  allZones.filter fun z => (entryOf s z).enabled && decide ((entryOf s z).station = st)

/-! ### Conditions (R187) -/

/-- Condition numbers (R187). -/
def condNum : Cond → Nat
  | .stationHeld st => 5 * stationNum st
  | .cycleClosed st => 5 * stationNum st + 1
  | .heatFault st => 5 * stationNum st + 2
  | .noCycle st => 5 * stationNum st + 3
  | .chargeAgedSeen st => 5 * stationNum st + 4
  | .budgetPressure => 10
  | .scaleOverload => 11
  | .chargeRejected => 12
  | .historyHigh => 13
  | .historyFull => 14
  | .portInDown => 15
  | .portOutDown => 16
  | .frameErrors => 17
  | .queueDrop => 18
  | .sensorStale => 19
  | .recordBaseUnset => 20
  | .imageInvalid => 21
  | .imageStored => 22

/-- The set holding one condition. -/
def condBit (k : Nat) : BitVec 23 := 1#23 <<< k

/-- The set `v` with condition `k` put in or taken out. -/
def setBit (v : BitVec 23) (k : Nat) (on : Bool) : BitVec 23 :=
  if on then v ||| condBit k else v &&& ~~~(condBit k)

/-- Set the latch of a condition: an event of an event condition, or FORCE_CONDITION (R187). -/
def latch (k : Nat) (s : Block) : Block := { s with cdu := { s.cdu with latched := setBit s.cdu.latched k true } }

/-- Report a single event of an event condition (R187). -/
def latchCond (c : Cond) (s : Block) : Block := latch (condNum c) s

/-- Drive the present level of a level condition; a rise sets its latch (R187). -/
def setLevel (c : Cond) (on : Bool) (s : Block) : Block :=
  let rise := on && !s.cdu.present.getLsbD (condNum c)
  let s1 := { s with cdu := { s.cdu with present := setBit s.cdu.present (condNum c) on } }
  if rise then latch (condNum c) s1 else s1

/-- The conditions that are latched and unmasked (R189). -/
def reportable (s : Block) : BitVec 23 := s.cdu.latched &&& ~~~s.cdu.mask

/-- An EVENT frame waits while the gate is OPEN and a condition is latched and unmasked (R189). -/
def eventWaiting (s : Block) : Bool := s.cdu.gateOpen && decide (reportable s ≠ 0)

/-! ### Port counters (R19, R20) -/

/-- One event of a counter. -/
def bump (n : Nat) : Nat := min (n + 1) Config.counterMax

/-- Change the counters. -/
def modCounters (f : Counters → Counters) (s : Block) : Block :=
  { s with rpu := { s.rpu with counters := f s.rpu.counters } }

/-- CRC_ERR, which latches FRAME_ERRORS. -/
def countCrcErr (s : Block) : Block :=
  latchCond .frameErrors (modCounters (fun c => { c with crcErr := bump c.crcErr }) s)

/-- RETURNED. -/
def countReturned (s : Block) : Block := modCounters (fun c => { c with returned := bump c.returned }) s

/-- HOP_EXPIRED. -/
def countHopExpired (s : Block) : Block := modCounters (fun c => { c with hopExpired := bump c.hopExpired }) s

/-- WRONG_KIND. -/
def countWrongKind (s : Block) : Block := modCounters (fun c => { c with wrongKind := bump c.wrongKind }) s

/-- FWD_DROP, which latches QUEUE_DROP. -/
def countFwdDrop (s : Block) : Block :=
  latchCond .queueDrop (modCounters (fun c => { c with fwdDrop := bump c.fwdDrop }) s)

/-- DISCONNECT. -/
def countDisconnect (s : Block) : Block := modCounters (fun c => { c with disconnect := bump c.disconnect }) s

/-- REQ_DROP, which latches QUEUE_DROP. -/
def countReqDrop (s : Block) : Block :=
  latchCond .queueDrop (modCounters (fun c => { c with reqDrop := bump c.reqDrop }) s)

/-- RX_FRAMES. -/
def countRxFrames (s : Block) : Block := modCounters (fun c => { c with rxFrames := bump c.rxFrames }) s

/-- TX_FRAMES. -/
def countTxFrames (s : Block) : Block := modCounters (fun c => { c with txFrames := bump c.txFrames }) s

/-! ### The control queue (R12 to R16) -/

/-- OUT is UP. -/
def outUp (s : Block) : Bool := decide (s.rpu.outPort.link = .up)

/-- Put a frame into the control queue by a posting rule; while OUT is not UP it is discarded (R4). -/
def postControl (f : List ControlFrame → List ControlFrame) (s : Block) : Block :=
  if outUp s then { s with rpu := { s.rpu with controlQ := f s.rpu.controlQ } } else s

/-- The node of a DRIVE frame. -/
def driveNodeOf : ControlFrame → Option Nat
  | .drive n _ => some n
  | _ => none

/-- A duty put into the entry list of a DRIVE frame: replaced in place, or appended (R13). -/
def putDuty (channel duty : Nat) : List DriveEntry → List DriveEntry
  | [] => [{ channel := channel, duty := duty }]
  | e :: es => if e.channel = channel then { e with duty := duty } :: es else e :: putDuty channel duty es

/-- Remove the oldest DRIVE frame whose node is none of `nodes` (R14). -/
def dropStrayDrive (nodes : List Nat) : List ControlFrame → List ControlFrame
  | [] => []
  | f :: fs => match f with
    | .drive n _ => if n ∈ nodes then f :: dropStrayDrive nodes fs else fs
    | _ => f :: dropStrayDrive nodes fs

/-- The posting rule of a duty (R13, R14); `nodes` are the drive nodes of the enabled zones. -/
def putDrive (nodes : List Nat) (node channel duty : Nat) (q : List ControlFrame) : List ControlFrame :=
  if q.any (fun f => decide (driveNodeOf f = some node)) then
    q.map fun f => match f with
      | .drive n es => if n = node then .drive n (putDuty channel duty es) else f
      | g => g
  else
    let q1 := if (q.filterMap driveNodeOf).length < Config.driveNodes then q else dropStrayDrive nodes q
    q1 ++ [.drive node [{ channel := channel, duty := duty }]]

/-- The first frame that satisfies `p` replaced in place by `new`; joins the back when there is none (R15). -/
def replaceOrJoin (p : ControlFrame → Bool) (new : ControlFrame) : List ControlFrame → List ControlFrame
  | [] => [new]
  | f :: fs => if p f then new :: fs else f :: replaceOrJoin p new fs

/-- A PERMIT frame of the station. -/
def isPermitOf (st : Station) : ControlFrame → Bool
  | .permit t _ _ _ _ => decide (t = st)
  | _ => false

/-- A STROKE frame of the station. -/
def isStrokeOf (st : Station) : ControlFrame → Bool
  | .stroke t _ _ => decide (t = st)
  | _ => false

/-- A WEIGH frame. -/
def isWeigh : ControlFrame → Bool
  | .weigh _ _ => true
  | _ => false

/-- The first WEIGH frame removed. -/
def dropFirstWeigh : List ControlFrame → List ControlFrame
  | [] => []
  | f :: fs => if isWeigh f then fs else f :: dropFirstWeigh fs

/-- The posting rule of a WEIGH frame: with two held the older is removed (R16). -/
def putWeigh (new : ControlFrame) (q : List ControlFrame) : List ControlFrame :=
  (if (q.filter isWeigh).length < 2 then q else dropFirstWeigh q) ++ [new]

/-- Drive nodes of the enabled zones (R14, R46). -/
def enabledNodes (s : Block) : List Nat :=
  (allZones.filter fun z => (entryOf s z).enabled).map fun z => (entryOf s z).driveNode

/-- Post a zone's granted duty to the node and channel of its Zone Table entry (R13, R97). -/
def postDuty (z : Fin 32) (s : Block) : Block :=
  let e := entryOf s z
  postControl (putDrive (enabledNodes s) e.driveNode e.driveChannel (zoneOf s z).g) s

/-- The record number a station's PERMIT frames carry: the open cycle's, or 0 (R84). -/
def permitRecord (s : Block) (st : Station) : Nat := match (stcOf s st).cycle with
  | some c => c.record
  | none => 0

/-- Post a station's PERMIT frame and restart its refresh timer with the period in force (R15, R53, R84). -/
def postPermit (st : Station) (s : Block) : Block :=
  let e := s.tab.stations.get st
  let c := stcOf s st
  modStc st (fun c => { c with refresh := startTimer e.refresh })
    (postControl (replaceOrJoin (isPermitOf st) (.permit st e.pressNode c.closeOk c.openOk (permitRecord s st))) s)

/-- Post a STROKE order of a station to its ejector node (R15, R148). -/
def postStroke (st : Station) (o : StrokeOrder) (s : Block) : Block :=
  postControl (replaceOrJoin (isStrokeOf st) (.stroke st (s.tab.stations.get st).ejectorNode o)) s

/-- Post a WEIGH notice to the robot node (R16, R55). -/
def postWeigh (n : WeighNotice) (s : Block) : Block := postControl (putWeigh (.weigh s.tab.line.robot n)) s

/-! ### The info queue (R17) -/

/-- Put a frame at the back of the info queue. -/
def joinInfo (f : InfoFrame) (s : Block) : Block := { s with rpu := { s.rpu with infoQ := s.rpu.infoQ ++ [f] } }

/-- Post an MREPLY: it joins while fewer than 16 frames are held, or is dropped with REQ_DROP (R17). -/
def postReply (f : InfoFrame) (s : Block) : Block :=
  if s.rpu.infoQ.length < Config.infoCapacity then joinInfo f s else countReqDrop s

/-! ### Kind codes and payloads (R21, R23) -/

def kindSample : Byte := 0x10
def kindDrive : Byte := 0x20
def kindStroke : Byte := 0x24
def kindPermit : Byte := 0x28
def kindWeigh : Byte := 0x30
def kindMgmt : Byte := 0x40
def kindMreply : Byte := 0x41
def kindEvent : Byte := 0x48
def kindPart : Byte := 0x50

/-- Notice codes (R23). -/
def noticeCode : Notice → Nat
  | .clearScale => 1
  | .nearTarget => 2
  | .accepted => 3
  | .rejected => 4
  | .discard => 5

/-- Cause codes of a WEIGH frame (R23). -/
def weighCauseCode : WeighCause → Nat
  | .none => 0
  | .under => 1
  | .over => 2
  | .timeout => 3

/-- The permit set byte: bit 0 CLOSE_OK, bit 1 OPEN_OK (R23). -/
def permitByte (closeOk openOk : Bool) : Nat := closeOk.toNat + 2 * openOk.toNat

/-- Destination, kind and payload of a control frame (R23). -/
def controlFrame : ControlFrame → InfoFrame
  | .drive node es =>
    { dest := byteOf node, kind := kindDrive
      payload := byteOf es.length :: es.flatMap fun e => byteOf e.channel :: leBytes 2 e.duty }
  | .permit st dest c o rec =>
    { dest := byteOf dest, kind := kindPermit
      payload := [byteOf (stationNum st), byteOf (permitByte c o)] ++ leBytes 4 rec }
  | .stroke st dest o =>
    { dest := byteOf dest, kind := kindStroke
      payload := [byteOf (stationNum st), o.mask] ++ leBytes 2 o.target ++ leBytes 2 o.ceiling ++ [byteOf o.speed] }
  | .weigh dest n =>
    { dest := byteOf dest, kind := kindWeigh
      payload := [byteOf (stationNum n.station), byteOf (noticeCode n.notice), byteOf n.attempt,
                  byteOf (weighCauseCode n.cause)] ++ leInt 4 n.weight }

/-! ### The OUT arbiter (R10, R11) -/

/-- The bytes of a frame the part originates, with the header of R10. -/
def originBytes (s : Block) (f : InfoFrame) : List Byte :=
  frameBytes { dest := f.dest, src := byteOf s.rpu.ownAddress, kind := f.kind, hops := byteOf Config.ownHops
               payload := f.payload }

/-- The frame whose transmission begins next, and the RPU after that (R11, with k the consecutive-forward count):
the oldest forwarded frame while k is below 4 or both insertion queues are empty; else the front of the control queue;
else the oldest info frame; else none. -/
def decideOut (s : Block) : Block :=
  let r := s.rpu
  let forwardMay := decide (r.forwardCount < Config.forwardRun) || (r.controlQ.isEmpty && r.infoQ.isEmpty)
  match (if forwardMay then r.forwardQ else []), r.controlQ, r.infoQ with
  | f :: fs, _, _ =>
    { s with rpu := { r with forwardQ := fs, onLine := some (frameBytes f),
                             forwardCount := min (r.forwardCount + 1) Config.forwardRun } }
  | [], c :: cs, _ =>
    { s with rpu := { r with controlQ := cs, onLine := some (originBytes s (controlFrame c)), forwardCount := 0 } }
  | [], [], i :: rest =>
    { s with rpu := { r with infoQ := rest, onLine := some (originBytes s i), forwardCount := 0 } }
  | [], [], [] => s

/-- While OUT is UP and idle the arbiter decides at the moment a frame first becomes available (R11). DEDUCED (log 5): it
is taken at the end of every event, after all posts of that event, and at the end of every command. -/
def arbitrate (s : Block) : Block := if outUp s && s.rpu.onLine.isNone then decideOut s else s

/-! ### Reading the Sample Map (R41) -/

/-- The map entry in use that names a target, if any. -/
def entryFor (s : Block) (t : Target) : Option MapEntry :=
  s.tab.map.toList.find? fun e => match e.config with
    | some c => decide (c.target = t)
    | none => false

/-- The held value of a target; 0 where no entry names it (R41). -/
def heldOf (s : Block) (t : Target) : Int := match entryFor s t with
  | some e => e.held
  | none => 0

/-- The freshness of a target; NEVER where no entry names it (R41). -/
def freshnessOf (s : Block) (t : Target) : Freshness := match entryFor s t with
  | some e => e.freshness
  | none => .never

/-- The target is FRESH. -/
def isFresh (s : Block) (t : Target) : Bool := decide (freshnessOf s t = .fresh)

/-! ### Writing the open record (R174) -/

/-- A slot after a write to the OPEN record with this number; any other slot is unchanged (R174). -/
def writeSlot (number : Nat) (f : Record → Record) (sl : HistorySlot) : HistorySlot := match sl with
  | .held .opened r => if r.number = number then .held .opened (f r) else sl
  | _ => sl

/-- Change the History Store. -/
def modHst (f : Hst → Hst) (s : Block) : Block := { s with hst := f s.hst }

/-- Write into the OPEN record with this number; a write to any other record is ignored (R174). -/
def modRecord (number : Nat) (f : Record → Record) (s : Block) : Block :=
  modHst (fun h => { h with slots := vmap (writeSlot number f) h.slots }) s

/-- Write into the record of a station's open cycle (R174). -/
def modOpenRecord (st : Station) (f : Record → Record) (s : Block) : Block := match (stcOf s st).cycle with
  | some c => modRecord c.record f s
  | none => s

end Sys2Proof.Machine
end

