-- ==== Sys2Proof/Machine/Flags.lean ====
section
/-! DEFINITION. Every flag computation: the record flags and the verdict drawn from them, the flag bytes of the status
parts, and the codes that replies and records carry. -/

namespace Sys2Proof.Machine

open Sys2Proof

/-! ### Record flags and verdict (R25, R174, R175) -/

/-- Bit numbers of the record flags (R25). -/
def recFlagNum : RecFlag → Nat
  | .aborted => 0
  | .heatFault => 1
  | .cureIncomplete => 2
  | .earlyOpen => 3
  | .unpermittedClose => 4
  | .demouldIncomplete => 5
  | .outOfBand => 6
  | .chargeAged => 7
  | .demouldRetried => 8
  | .sensorSwitched => 9

/-- Whether a flag is set. -/
def hasFlag (flags : BitVec 16) (f : RecFlag) : Bool := flags.getLsbD (recFlagNum f)

/-- A record with a flag set; a set flag is never cleared (R174). -/
def withFlag (f : RecFlag) (r : Record) : Record := { r with flags := r.flags ||| (1#16 <<< recFlagNum f) }

/-- Set a flag in the open record of a station (R174). -/
def setFlag (st : Station) (f : RecFlag) (s : Block) : Block := modOpenRecord st (withFlag f) s

/-- The verdict of a set of flags: the first line of the table of R175 that applies. -/
def verdictOf (flags : BitVec 16) : Verdict :=
  if hasFlag flags .aborted then .aborted
  else if hasFlag flags .heatFault || hasFlag flags .cureIncomplete || hasFlag flags .earlyOpen ||
      hasFlag flags .unpermittedClose || hasFlag flags .demouldIncomplete then .reject
  else if hasFlag flags .outOfBand || hasFlag flags .chargeAged || hasFlag flags .demouldRetried then .suspect
  else .good

/-! ### Codes -/

/-- Verdict codes (R25). -/
def verdictCode : Verdict → Nat
  | .good => 0
  | .suspect => 1
  | .reject => 2
  | .aborted => 3

/-- Charge status codes (R25). -/
def chargeCode : ChargeStatus → Nat
  | .pending => 0
  | .accepted => 1
  | .rejected => 2
  | .cancelled => 3

/-- Station state codes (R59). -/
def stationStateCode : StationState → Nat
  | .off => 0
  | .standby => 1
  | .preheat => 2
  | .ready => 3
  | .charging => 4
  | .pressLoad => 5
  | .curing => 6
  | .opening => 7
  | .demoulding => 8
  | .held => 9

/-- NO_CYCLE cause codes (R85). -/
def noCycleCode : NoCycle → Nat
  | .none => 0
  | .historyFull => 1
  | .recordBaseUnset => 2
  | .recipeInvalid => 3

/-- Zone state codes (R86). -/
def zoneStateCode : ZoneState → Nat
  | .disabled => 0
  | .off => 1
  | .regulating => 2
  | .blind => 3
  | .fault => 4

/-- Zone fault cause codes (R86). -/
def zoneCauseCode : ZoneCause → Nat
  | .none => 0
  | .overtemp => 1
  | .sensorLost => 2

/-- Slot numbers (R26). -/
def slotNum : Slot → Nat
  | .zero => 0
  | .one => 1

/-- Session state codes (R135). -/
def sessionCode : SessionState → Nat
  | .clearing => 1
  | .loading => 2
  | .settling => 3
  | .accepted => 4
  | .rejected => 5

/-- Sequencer state codes (R147). -/
def seqStateCode : SeqState → Nat
  | .idle => 0
  | .stroking => 1
  | .dwell => 2
  | .retracting => 3
  | .probing => 4
  | .paused => 5
  | .halted => 6
  | .homing => 7
  | .done => 8

/-- Halt cause codes (R147). -/
def haltCauseCode : HaltCause → Nat
  | .none => 0
  | .stall => 1
  | .stallUnlocated => 2
  | .retractStall => 3
  | .timeout => 4
  | .sensor => 5
  | .abort => 6
  | .homeStall => 7

/-- Probe phase codes (R167). -/
def probePhaseCode : ProbePhase → Nat
  | .none => 0
  | .out => 1
  | .back => 2
  | .rest => 3

/-- Resume action codes (R167). -/
def resumeCode : Resume → Nat
  | .none => 0
  | .step => 1
  | .probe => 2
  | .homing => 3

/-- Link state codes (R185). -/
def linkCode : Link → Nat
  | .down => 0
  | .training => 1
  | .up => 2

/-- Image state codes (R185). -/
def imageCode : ImageState → Nat
  | .ready => 0
  | .loading => 1
  | .storing => 2

/-- Freshness codes (R31). -/
def freshnessCode : Freshness → Nat
  | .never => 0
  | .fresh => 1
  | .stale => 2

/-! ### Flag bytes of the status parts -/

/-- Bit `k` of a flags byte. -/
def bitAt (k : Nat) (b : Bool) : Nat := b.toNat * 2 ^ k

/-- Flags of a station part (R85). -/
def stationFlags (c : Stc) : Nat :=
  bitAt 0 c.production + bitAt 1 c.deferredWake + bitAt 2 c.heatReady + bitAt 3 c.settle.isSome

/-- Flags of a zone part; `usable` is the selected slot's freshness at the take (R108). -/
def zoneFlags (z : Zone) (usable : Bool) : Nat :=
  slotNum z.slot + bitAt 1 z.inBand + bitAt 2 usable + bitAt 3 z.blindHold.isSome

/-- Flags of a sequencer part (R167). -/
def seqFlags (d : Dms) : Nat :=
  bitAt 0 d.abortPending + bitAt 1 d.scanFollows + 4 * probePhaseCode d.probePhase + bitAt 4 d.stepTimer.isSome +
    bitAt 5 d.dwellTimer.isSome + 64 * resumeCode d.resume

/-- Flags of the scale part (R146). -/
def scaleFlags (u : Scu) (full : Bool) : Nat :=
  bitAt 0 full + bitAt 1 u.stable + bitAt 2 u.overload + bitAt 3 u.dwell.isSome + bitAt 4 u.loading.isSome +
    bitAt 5 (u.session.any (·.nearSent)) + bitAt 6 (u.session.any (·.clearSent))

/-- The presence byte of a record (R25): a part is present exactly when the record holds it; the weighed-at bit is set
only with the charge part. -/
def presenceByte (r : Record) : Nat :=
  bitAt 0 r.openedAt.isSome + bitAt 1 r.closedAt.isSome + bitAt 2 r.charge.isSome +
    bitAt 3 (r.charge.isSome && r.weighedAt.isSome) + bitAt 4 r.cure.isSome + bitAt 5 r.demould.isSome

end Sys2Proof.Machine
end

