-- ==== Sys2Proof/Machine/Operands.lean ====
section
/-! DEFINITION. Every operand form: received frames and SAMPLE entries, the written and read layouts of the table
entries with their range checks, and the bodies of requests. -/

namespace Sys2Proof.Machine

open Sys2Proof

/-! ### Received frames (R5, R22) -/

/-- A frame is well formed when it reached its end symbol, holds 7 to 127 bytes, and its payload length field is at
most 120 and agrees with the byte count (R5). -/
def wellFramed (f : RxFrame) : Bool :=
  !f.cutShort && decide (7 ≤ f.bytes.length) && decide (f.bytes.length ≤ 127) &&
    decide (field f.bytes 4 1 ≤ 120) && decide (f.bytes.length = field f.bytes 4 1 + 7)

/-- The received check bytes equal the check computed over header and payload (R6). -/
def checkPasses (bs : List Byte) : Bool :=
  decide ((frameCheck (bs.take (bs.length - 2))).toNat = field bs (bs.length - 2) 2)

/-- The frame a well-formed string of bytes carries (R5, R21). -/
def frameOf (bs : List Byte) : Frame :=
  { dest := bs.getD 0 0, src := bs.getD 1 0, kind := bs.getD 2 0, hops := bs.getD 3 0
    payload := (bs.drop 5).take (bs.length - 7) }

/-- One entry of a SAMPLE frame (R22). -/
structure SampleEntry where
  channel : Nat
  quality : Nat
  value : Int
  deriving DecidableEq, Repr

/-- `n` SAMPLE entries of 5 bytes each (R22). -/
def sampleEntriesAt : Nat → List Byte → List SampleEntry
  | 0, _ => []
  | n + 1, bs =>
    { channel := field bs 0 1, quality := field bs 1 1, value := fieldInt bs 2 3 } :: sampleEntriesAt n (bs.drop 5)

/-- The entries of a SAMPLE payload: none when the count is 0 or above 16 or disagrees with the length (R22). -/
def sampleEntries (payload : List Byte) : List SampleEntry :=
  let n := field payload 0 1
  if 1 ≤ n ∧ n ≤ 16 ∧ payload.length = 1 + 5 * n then sampleEntriesAt n (payload.drop 1) else []

/-! ### Choice fields -/

/-- A field that is 0 or 1 (R43). -/
def flagOf : Nat → Option Bool
  | 0 => some false
  | 1 => some true
  | _ => none

/-- A platen field (R45). -/
def platenOf : Nat → Option Platen
  | 0 => some .upper
  | 1 => some .lower
  | _ => none

def platenNum : Platen → Nat
  | .upper => 0
  | .lower => 1

/-- A Step Table index 0..63. -/
def stepIndexOf (n : Nat) : Option (Fin 64) := if h : n < 64 then some ⟨n, h⟩ else none

/-- The next field of a step: an index, END (255), or refused (R50). -/
def nextOf (n : Nat) : Option (Option (Fin 64)) := if n = 255 then some none else (stepIndexOf n).map some

def nextNum : Option (Fin 64) → Nat
  | none => 255
  | some i => i.val

/-- `lo ≤ x ≤ hi`, the form of every range of chapter 3. -/
def within (lo x hi : Nat) : Bool := decide (lo ≤ x) && decide (x ≤ hi)

/-! ### Zone Table entries (R45) -/

/-- The ranges of R45 that the fields' types leave open. -/
def zoneInRange (e : ZoneEntry) : Bool :=
  within 0 e.driveNode 63 && within 0 e.driveChannel 23 && within 0 e.ratedPower 500 && within 0 e.codeN 15 &&
    within 0 e.codeM 3 && within 0 e.kp 4095 && within 0 e.ki 1023 && within 0 e.ff 1000 &&
    within 0 e.dutyCeiling 1000 && within 1 e.slew 1000 && within 1 e.rampStep 500 &&
    decide (-500 ≤ e.offset) && decide (e.offset ≤ 500) && within 0 e.standbySetpoint 4000 &&
    within 0 e.overtempLimit 4500 && within 16 e.scanWindow 255 && within 1 e.switchMargin 15 &&
    within 0 e.blindCap 1000 && within 1 e.blindHold 600

/-- A written Zone Table entry of 33 bytes; `none` when a field lies outside its range (R43, R45). -/
def zoneEntryOf (bs : List Byte) : Option ZoneEntry := do
  let enabled ← flagOf (field bs 0 1)
  let station ← stationOf (field bs 1 1)
  let platen ← platenOf (field bs 2 1)
  let e : ZoneEntry :=
    { enabled := enabled, station := station, platen := platen, driveNode := field bs 3 1
      driveChannel := field bs 4 1, ratedPower := field bs 5 2, codeN := field bs 7 1, codeM := field bs 8 1
      kp := field bs 9 2, ki := field bs 11 2, ff := field bs 13 2, dutyCeiling := field bs 15 2
      slew := field bs 17 2, rampStep := field bs 19 2, offset := fieldInt bs 21 2
      standbySetpoint := field bs 23 2, overtempLimit := field bs 25 2, scanWindow := field bs 27 1
      switchMargin := field bs 28 1, blindCap := field bs 29 2, blindHold := field bs 31 2 }
  if zoneInRange e then some e else none

/-- The 33 bytes of a Zone Table entry (R45). -/
def zoneEntryBytes (e : ZoneEntry) : List Byte :=
  leBytes 1 e.enabled.toNat ++ leBytes 1 (stationNum e.station) ++ leBytes 1 (platenNum e.platen) ++
  leBytes 1 e.driveNode ++ leBytes 1 e.driveChannel ++ leBytes 2 e.ratedPower ++ leBytes 1 e.codeN ++
  leBytes 1 e.codeM ++ leBytes 2 e.kp ++ leBytes 2 e.ki ++ leBytes 2 e.ff ++ leBytes 2 e.dutyCeiling ++
  leBytes 2 e.slew ++ leBytes 2 e.rampStep ++ leInt 2 e.offset ++ leBytes 2 e.standbySetpoint ++
  leBytes 2 e.overtempLimit ++ leBytes 1 e.scanWindow ++ leBytes 1 e.switchMargin ++ leBytes 2 e.blindCap ++
  leBytes 2 e.blindHold

/-! ### Recipe Table entries (R48) -/

/-- The ranges of R48; a maximum cure time below the cure time is refused. The revision is not checked (R49). -/
def recipeInRange (e : Recipe) : Bool :=
  within 0 e.upper 4000 && within 0 e.lower 4000 && within 1 e.width 200 && within 1 e.settle 600 &&
    within 1 e.cure 36000 && within e.cure e.maxCure 65535 && within 0 e.minTonnage 60000 &&
    within 1 e.target 200000 && within 0 e.tolLow 20000 && within 0 e.tolHigh 20000 && within 500 e.early 999 &&
    within 1 e.maxAttempts 7 && within 1 e.maxWait 600 && within 0 e.allowance 600 && within 0 e.maxRetries 3 &&
    within 10 e.scanForce 90 && within 1 e.scanTravel 2000

/-- A written Recipe Table entry of 36 bytes, with the revision byte as it stands in the bytes (R43, R48). -/
def recipeOf (bs : List Byte) : Option Recipe := do
  let firstStep ← stepIndexOf (field bs 30 1)
  let scanEnable ← flagOf (field bs 32 1)
  let e : Recipe :=
    { revision := field bs 0 1, upper := field bs 1 2, lower := field bs 3 2, width := field bs 5 2
      settle := field bs 7 2, cure := field bs 9 2, maxCure := field bs 11 2, minTonnage := field bs 13 2
      target := field bs 15 4, tolLow := field bs 19 2, tolHigh := field bs 21 2, early := field bs 23 2
      maxAttempts := field bs 25 1, maxWait := field bs 26 2, allowance := field bs 28 2, firstStep := firstStep
      maxRetries := field bs 31 1, scanEnable := scanEnable, scanForce := field bs 33 1
      scanTravel := field bs 34 2 }
  if recipeInRange e then some e else none

/-- The 36 bytes of a Recipe Table entry (R48). -/
def recipeBytes (e : Recipe) : List Byte :=
  leBytes 1 e.revision ++ leBytes 2 e.upper ++ leBytes 2 e.lower ++ leBytes 2 e.width ++ leBytes 2 e.settle ++
  leBytes 2 e.cure ++ leBytes 2 e.maxCure ++ leBytes 2 e.minTonnage ++ leBytes 4 e.target ++ leBytes 2 e.tolLow ++
  leBytes 2 e.tolHigh ++ leBytes 2 e.early ++ leBytes 1 e.maxAttempts ++ leBytes 2 e.maxWait ++
  leBytes 2 e.allowance ++ leBytes 1 e.firstStep.val ++ leBytes 1 e.maxRetries ++ leBytes 1 e.scanEnable.toNat ++
  leBytes 1 e.scanForce ++ leBytes 2 e.scanTravel

/-! ### Step Table entries (R50) -/

/-- The ranges of R50. -/
def stepInRange (e : StepEntry) : Bool :=
  within 1 e.copy.mask.toNat 255 && within 0 e.copy.target 30000 && within 1 e.copy.ceiling 20000 &&
    within 0 e.copy.speed 7 && within 0 e.copy.dwell 10000 && within 100 e.copy.timeout 30000

/-- A written Step Table entry of 12 bytes (R43, R50). -/
def stepEntryOf (bs : List Byte) : Option StepEntry := do
  let used ← flagOf (field bs 0 1)
  let next ← nextOf (field bs 11 1)
  let e : StepEntry :=
    { used := used
      copy := { mask := bs.getD 1 0, target := field bs 2 2, ceiling := field bs 4 2, speed := field bs 6 1
                dwell := field bs 7 2, timeout := field bs 9 2 }
      next := next }
  if stepInRange e then some e else none

/-- The 12 bytes of a Step Table entry (R50). -/
def stepEntryBytes (e : StepEntry) : List Byte :=
  leBytes 1 e.used.toNat ++ [e.copy.mask] ++ leBytes 2 e.copy.target ++ leBytes 2 e.copy.ceiling ++
  leBytes 1 e.copy.speed ++ leBytes 2 e.copy.dwell ++ leBytes 2 e.copy.timeout ++ leBytes 1 (nextNum e.next)

/-! ### Station Table entries (R53) -/

/-- The ranges of R53. -/
def stationInRange (e : StationEntry) : Bool :=
  within 0 e.pressNode 63 && within 0 e.ejectorNode 63 && within 100 e.refresh 2000 && within 1 e.tolerance 500

/-- A written Station Table entry of 6 bytes (R43, R53). -/
def stationEntryOf (bs : List Byte) : Option StationEntry :=
  let e : StationEntry :=
    { pressNode := field bs 0 1, ejectorNode := field bs 1 1, refresh := field bs 2 2, tolerance := field bs 4 2 }
  if stationInRange e then some e else none

/-- The 6 bytes of a Station Table entry (R53). -/
def stationEntryBytes (e : StationEntry) : List Byte :=
  leBytes 1 e.pressNode ++ leBytes 1 e.ejectorNode ++ leBytes 2 e.refresh ++ leBytes 2 e.tolerance

/-! ### Line Settings (R54) -/

/-- The ranges of R54: a master of 0..63 or 255, a leave band at least the stable band. -/
def lineInRange (e : LineSettings) : Bool :=
  within 0 e.own 63 && (within 0 e.master 63 || decide (e.master = 255)) && within 0 e.robot 63 &&
    within 0 e.cap 65535 && within 0 e.headroom 1000 && within 200 e.period 5000 && within 50 e.restore 100 &&
    decide (-8388608 ≤ e.zero) && decide (e.zero ≤ 8388607) && within 1 e.span 1048575 &&
    within 1 e.capacity 500000 && within 0 e.emptyLimit 5000 && within 0 e.windowCode 5 &&
    within 1 e.stableBand 5000 && within e.stableBand e.leaveBand 5000 && within 0 e.dwellCode 63 &&
    within 5 e.maxLoading 900 && within 1 e.watermark 48

/-- A written Line Settings record of 31 bytes (R43, R54). -/
def lineOf (bs : List Byte) : Option LineSettings :=
  let e : LineSettings :=
    { own := field bs 0 1, master := field bs 1 1, robot := field bs 2 1, cap := field bs 3 2
      headroom := field bs 5 2, period := field bs 7 2, restore := field bs 9 1, zero := fieldInt bs 10 3
      span := field bs 13 3, capacity := field bs 16 4, emptyLimit := field bs 20 2, windowCode := field bs 22 1
      stableBand := field bs 23 2, leaveBand := field bs 25 2, dwellCode := field bs 27 1
      maxLoading := field bs 28 2, watermark := field bs 30 1 }
  if lineInRange e then some e else none

/-- The 31 bytes of the Line Settings record (R54). -/
def lineBytes (e : LineSettings) : List Byte :=
  leBytes 1 e.own ++ leBytes 1 e.master ++ leBytes 1 e.robot ++ leBytes 2 e.cap ++ leBytes 2 e.headroom ++
  leBytes 2 e.period ++ leBytes 1 e.restore ++ leInt 3 e.zero ++ leBytes 3 e.span ++ leBytes 4 e.capacity ++
  leBytes 2 e.emptyLimit ++ leBytes 1 e.windowCode ++ leBytes 2 e.stableBand ++ leBytes 2 e.leaveBand ++
  leBytes 1 e.dwellCode ++ leBytes 2 e.maxLoading ++ leBytes 1 e.watermark

/-! ### Sample Map entries (R26, R29) -/

/-- A zone index 0..31. -/
def zoneIndexOf (n : Nat) : Option (Fin 32) := if h : n < 32 then some ⟨n, h⟩ else none

/-- A sensor slot number (R26). -/
def slotOf : Nat → Option Slot
  | 0 => some .zero
  | 1 => some .one
  | _ => none

/-- A station signal item code (R26). -/
def signalOf : Nat → Option Signal
  | 0 => some .closed
  | 1 => some .opened
  | 2 => some .tonnage
  | 3 => some .hold
  | 4 => some .ejectPos
  | 5 => some .ejectForce
  | _ => none

def signalNum : Signal → Nat
  | .closed => 0
  | .opened => 1
  | .tonnage => 2
  | .hold => 3
  | .ejectPos => 4
  | .ejectForce => 5

/-- The target a kind, unit and item name, where R26 allows them; the kind is not NONE. -/
def targetOf (kind unit item : Nat) : Option Target :=
  match kind with
  | 1 => do
    let z ← zoneIndexOf unit
    let sl ← slotOf item
    some (.zoneSensor z sl)
  | 2 => if unit = 0 ∧ item = 0 then some .scaleRaw else none
  | 3 => if unit = 0 ∧ item = 0 then some .scaleDone else none
  | 4 => do
    let st ← stationOf unit
    let sig ← signalOf item
    some (.stationSignal st sig)
  | _ => none

/-- Kind, unit and item of a target (R26). -/
def targetCodes : Target → Nat × Nat × Nat
  | .zoneSensor z sl => (1, z.val, slotNum sl)
  | .scaleRaw => (2, 0, 0)
  | .scaleDone => (3, 0, 0)
  | .stationSignal st sig => (4, stationNum st, signalNum sig)

/-- A zone sensor target. -/
def isZoneSensor : Target → Bool
  | .zoneSensor _ _ => true
  | _ => false

/-- The ranges of R29 that the fields' types leave open. -/
def mapInRange (c : MapConfig) : Bool :=
  within 0 c.node 63 && within 0 c.channel 255 && within 20 c.freshLimit 10000 &&
    (if isZoneSensor c.target then within 1 c.jumpLimit 2000 else decide (c.jumpLimit = 0))

/-- A written Sample Map entry of 9 bytes: refused (`none`), empty (`some none`), or in use (R26, R29). -/
def mapConfigOf (bs : List Byte) : Option (Option MapConfig) :=
  if field bs 2 1 = 0 then some none
  else do
    let t ← targetOf (field bs 2 1) (field bs 3 1) (field bs 4 1)
    let c : MapConfig :=
      { node := field bs 0 1, channel := field bs 1 1, target := t, freshLimit := field bs 5 2
        jumpLimit := field bs 7 2 }
    if mapInRange c then some (some c) else none

/-- The 9 bytes of a Sample Map entry; an empty entry is stored with every field 0 (R26, R29). -/
def mapConfigBytes : Option MapConfig → List Byte
  | none => leBytes 9 0
  | some c =>
    let t := targetCodes c.target
    leBytes 1 c.node ++ leBytes 1 c.channel ++ leBytes 1 t.1 ++ leBytes 1 t.2.1 ++ leBytes 1 t.2.2 ++
      leBytes 2 c.freshLimit ++ leBytes 2 c.jumpLimit

/-- The 17 bytes TABLE_READ returns for a Sample Map entry: the seven fields and the live state of R31. -/
def mapEntryBytes (e : MapEntry) : List Byte :=
  mapConfigBytes e.config ++ leBytes 1 (freshnessCode e.freshness) ++ leInt 3 e.held ++ leBytes 1 e.quality ++
    leBytes 2 e.age ++ leBytes 1 e.jumps

/-! ### Tables by identifier (R43, R186) -/

/-- The tables of R43 by identifier. -/
inductive TableId where
  | zone | recipe | step | station | line | map
  deriving DecidableEq, Repr

/-- The table an identifier names (R43). -/
def tableOf : Nat → Option TableId
  | 0 => some .zone
  | 1 => some .recipe
  | 2 => some .step
  | 3 => some .station
  | 4 => some .line
  | 5 => some .map
  | _ => none

/-- Entries of each table (chapter 3). -/
def tableCount : TableId → Nat
  | .zone => 32
  | .recipe => 16
  | .step => 64
  | .station => 2
  | .line => 1
  | .map => 96

/-- Bytes of a written entry (chapter 3). -/
def writtenSize : TableId → Nat
  | .zone => 33
  | .recipe => 36
  | .step => 12
  | .station => 6
  | .line => 31
  | .map => 9

/-- Bytes of an entry as TABLE_READ returns it (R26, R186). -/
def readSize : TableId → Nat
  | .map => 17
  | t => writtenSize t

/-- The step a step byte names: 01h is +1 and FFh is −1 (R184). -/
def stepByte : Nat → Option Int
  | 0x01 => some 1
  | 0xFF => some (-1)
  | _ => none

/-! ### Request codes and statuses (R24) -/

def codeReadId : Nat := 0x01
def codeTableWrite : Nat := 0x02
def codeTableRead : Nat := 0x03
def codeStation : Nat := 0x04
def codeScale : Nat := 0x05
def codeReadStatus : Nat := 0x06
def codeReadCounters : Nat := 0x07
def codeReadConditions : Nat := 0x08
def codeClearConditions : Nat := 0x09
def codeSetMask : Nat := 0x0A
def codeForceCondition : Nat := 0x0B
def codeSetRecordBase : Nat := 0x0C
def codeSetTime : Nat := 0x0D
def codeHistorySummary : Nat := 0x0E
def codeCollect : Nat := 0x0F
def codeRelease : Nat := 0x10
def codeStoreImage : Nat := 0x11
def codeRestart : Nat := 0x12

/-- Reply statuses (R183). -/
inductive Status where
  | ok | deferred | busy | badRequest | badIndex | badEntry | notAllowed | refused
  deriving DecidableEq, Repr

/-- Status codes (R24). -/
def statusCode : Status → Nat
  | .ok => 0
  | .deferred => 1
  | .busy => 2
  | .badRequest => 3
  | .badIndex => 4
  | .badEntry => 5
  | .notAllowed => 6
  | .refused => 7

/-- Command codes of STATION_COMMAND (R60). -/
def cmdBindRecipe : Nat := 1
def cmdWake : Nat := 2
def cmdStandby : Nat := 3
def cmdOff : Nat := 4
def cmdProduce : Nat := 5
def cmdStop : Nat := 6
def cmdAbortCycle : Nat := 7
def cmdZoneRecover : Nat := 8
def cmdDemouldRelease : Nat := 9
def cmdDemouldReset : Nat := 10

/-- Command codes of SCALE_COMMAND (R130). -/
def cmdTare : Nat := 1
def cmdZero : Nat := 2
def cmdCancel : Nat := 3

end Sys2Proof.Machine
end

