-- ==== Sys2Proof/Decode.lean ====
section
/-! DEFINITION. Decoding. The table gives no row any bits, so no word spells a command (`decodeTableWord`). What the
part does decode are the requests of its host: `decodeRequest` reads a request of the request queue as a command (R24,
R60, R130, R184), and `requestOf` writes the request of a command. -/

namespace Sys2Proof

open Sys2Proof.Machine

/-- The command a word of the opcode table spells: none, since no row of spec/opcode_table.json has bits. -/
def decodeTableWord (_nbits _w : Nat) : Option Instr := none

/-! ### Requests as commands -/

/-- A STATION_COMMAND with a body of 3 bytes: station, command code, argument (R60). -/
def decodeStation (q : Sender) (body : List Byte) : Instr := match body with
  | [st, cmd, arg] => match cmd.toNat with
    | 1 => .bindRecipe q st arg
    | 2 => .wake q st arg
    | 3 => .standby q st arg
    | 4 => .off q st arg
    | 5 => .produce q st arg
    | 6 => .stop q st arg
    | 7 => .abortCycle q st arg
    | 8 => .zoneRecover q st arg
    | 9 => .demouldRelease q st arg
    | 10 => .demouldReset q st arg
    | _ => .unknownRequest q (byteOf codeStation) body
  | _ => .unknownRequest q (byteOf codeStation) body

/-- A SCALE_COMMAND with a body of 2 bytes: command code and station (R130). -/
def decodeScale (q : Sender) (body : List Byte) : Instr := match body with
  | [cmd, st] => match cmd.toNat with
    | 1 => .tare q st
    | 2 => .zero q st
    | 3 => .cancel q st
    | _ => .unknownRequest q (byteOf codeScale) body
  | _ => .unknownRequest q (byteOf codeScale) body

/-- READ_COUNTERS with its option byte (R184). -/
def decodeCounters (q : Sender) (body : List Byte) : Instr := match body with
  | [opt] => match opt.toNat with
    | 0 => .readCounters q
    | 1 => .readCountersClear q
    | _ => .unknownRequest q (byteOf codeReadCounters) body
  | _ => .unknownRequest q (byteOf codeReadCounters) body

/-- RESTART with its option byte (R184). -/
def decodeRestart (q : Sender) (body : List Byte) : Instr := match body with
  | [opt] => match opt.toNat with
    | 0 => .restart q
    | 1 => .restartForce q
    | _ => .unknownRequest q (byteOf codeRestart) body
  | _ => .unknownRequest q (byteOf codeRestart) body

/-- A request by its code (R24). -/
def decodeCode (q : Sender) (code : Byte) (body : List Byte) : Instr := match code.toNat with
  | 0x01 => .readId q body
  | 0x02 => .tableWrite q body
  | 0x03 => .tableRead q body
  | 0x04 => decodeStation q body
  | 0x05 => decodeScale q body
  | 0x06 => .readStatus q body
  | 0x07 => decodeCounters q body
  | 0x08 => .readConditions q body
  | 0x09 => .clearConditions q body
  | 0x0A => .setMask q body
  | 0x0B => .forceCondition q body
  | 0x0C => .setRecordBase q body
  | 0x0D => .setTime q body
  | 0x0E => .historySummary q body
  | 0x0F => .collect q body
  | 0x10 => .release q body
  | 0x11 => .storeImage q body
  | 0x12 => decodeRestart q body
  | _ => .unknownRequest q code body

/-- The command a request of the request queue is taken as (R24, R183). A request with a code that names no row, or
one whose option or command code or fixed length leaves it no row, is UNKNOWN_REQUEST (log 15). -/
def decodeRequest (r : Request) : Instr := match r.payload with
  | tag :: code :: body => decodeCode { src := r.src, tag := tag } code body
  | _ => .shortRequestDiscard r.src r.payload

/-- A request of a sender. -/
def mgmtRequest (q : Sender) (code : Nat) (body : List Byte) : Request :=
  { src := q.src, payload := q.tag :: byteOf code :: body }

/-- A STATION_COMMAND request (R60). -/
def stationRequest (q : Sender) (st : Byte) (cmd : Nat) (arg : Byte) : Request :=
  mgmtRequest q codeStation [st, byteOf cmd, arg]

/-- A SCALE_COMMAND request (R130). -/
def scaleRequest (q : Sender) (cmd : Nat) (st : Byte) : Request := mgmtRequest q codeScale [byteOf cmd, st]

/-- The request that a request command is the take of; none for the other commands. -/
def requestOf : Instr → Option Request
  | .shortRequestDiscard src payload => some { src := src, payload := payload }
  | .unknownRequest q code body => some { src := q.src, payload := q.tag :: code :: body }
  | .readId q body => some (mgmtRequest q codeReadId body)
  | .tableWrite q body => some (mgmtRequest q codeTableWrite body)
  | .tableRead q body => some (mgmtRequest q codeTableRead body)
  | .bindRecipe q st arg => some (stationRequest q st cmdBindRecipe arg)
  | .wake q st arg => some (stationRequest q st cmdWake arg)
  | .standby q st arg => some (stationRequest q st cmdStandby arg)
  | .off q st arg => some (stationRequest q st cmdOff arg)
  | .produce q st arg => some (stationRequest q st cmdProduce arg)
  | .stop q st arg => some (stationRequest q st cmdStop arg)
  | .abortCycle q st arg => some (stationRequest q st cmdAbortCycle arg)
  | .zoneRecover q st arg => some (stationRequest q st cmdZoneRecover arg)
  | .demouldRelease q st arg => some (stationRequest q st cmdDemouldRelease arg)
  | .demouldReset q st arg => some (stationRequest q st cmdDemouldReset arg)
  | .tare q st => some (scaleRequest q cmdTare st)
  | .zero q st => some (scaleRequest q cmdZero st)
  | .cancel q st => some (scaleRequest q cmdCancel st)
  | .readStatus q body => some (mgmtRequest q codeReadStatus body)
  | .readCounters q => some (mgmtRequest q codeReadCounters [0])
  | .readCountersClear q => some (mgmtRequest q codeReadCounters [1])
  | .readConditions q body => some (mgmtRequest q codeReadConditions body)
  | .clearConditions q body => some (mgmtRequest q codeClearConditions body)
  | .setMask q body => some (mgmtRequest q codeSetMask body)
  | .forceCondition q body => some (mgmtRequest q codeForceCondition body)
  | .setRecordBase q body => some (mgmtRequest q codeSetRecordBase body)
  | .setTime q body => some (mgmtRequest q codeSetTime body)
  | .historySummary q body => some (mgmtRequest q codeHistorySummary body)
  | .collect q body => some (mgmtRequest q codeCollect body)
  | .release q body => some (mgmtRequest q codeRelease body)
  | .storeImage q body => some (mgmtRequest q codeStoreImage body)
  | .restart q => some (mgmtRequest q codeRestart [0])
  | .restartForce q => some (mgmtRequest q codeRestart [1])
  | .powerOn | .linkSignalPresent _ _ | .linkTrainingDisturbed _ _ | .linkCleanTimeExpiry _
  | .linkTrainingSignalLoss _ | .linkLoss _ _ | .frameReceived _ | .frameTransmitComplete | .eventFrameJoin
  | .partFrameJoin | .sampleEntryStale _ | .imageLoadComplete _ | .imageStoreEnd _ | .settleTimerExpiry _
  | .cureAccrualComplete _ | .maximumCureTimeExpiry _ | .outOfBandAllowanceExceeded _ | .permitRefreshExpiry _
  | .regulationEvent _ | .blindHoldExpiry _ | .budgetPeriodExpiry | .stableDwellExpiry | .loadingTimerExpiry
  | .stepTimerExpiry _ | .dwellTimerExpiry _ => none

end Sys2Proof
end

