-- ==== Sys2Proof/Machine/History.lean ====
section
/-! DEFINITION. The History Store (chapter 9): slots and numbers, opening and closing a record, its conditions, the
PART payload, collection and release. -/

namespace Sys2Proof.Machine

open Sys2Proof

/-- All slot indices in ascending order. -/
def allSlots : List (Fin 48) := List.finRange 48

/-- The record a slot holds, with its state. -/
def holdingOf : HistorySlot → Option (Holding × Record)
  | .free => none
  | .held h r => some (h, r)

/-- A slot is FREE. -/
def isFree : HistorySlot → Bool
  | .free => true
  | _ => false

/-- The slot holds a record in this state. -/
def isHolding (h : Holding) : HistorySlot → Bool
  | .held g _ => decide (g = h)
  | .free => false

/-- The number of the record a slot holds; 0 for a FREE slot. -/
def slotNumber : HistorySlot → Nat
  | .held _ r => r.number
  | .free => 0

/-- A slot that counts toward HISTORY_HIGH: CLOSED or SENT (R181). -/
def isCollectable (sl : HistorySlot) : Bool := isHolding .closed sl || isHolding .sent sl

/-- How many slots satisfy `p`. -/
def countSlots (p : HistorySlot → Bool) (h : Hst) : Nat := (allSlots.filter fun i => p (vget h.slots i)).length

/-- The counter stands above the number of every non-FREE record (R170). A FREE slot counts as number 0, and the
counter is at least 1. -/
def counterAbove (h : Hst) (n : Nat) : Bool := allSlots.all fun i => decide (slotNumber (vget h.slots i) < n)

/-- The slot an open takes: the FREE slot with the lowest index, while the counter stands above every stored number;
with the counter UNSET, the lowest FREE slot (R169, R170). -/
def availableSlot (h : Hst) : Option (Fin 48) :=
  match h.counter with
  | some n => if counterAbove h n then allSlots.find? fun i => isFree (vget h.slots i) else none
  | none => allSlots.find? fun i => isFree (vget h.slots i)

/-- Judge HISTORY_FULL: present while no slot is FREE (R181). -/
def judgeFull (s : Block) : Block := setLevel .historyFull (decide (countSlots isFree s.hst = 0)) s

/-- Judge HISTORY_HIGH: present while CLOSED and SENT records are at least the watermark (R181). -/
def judgeHigh (s : Block) : Block :=
  setLevel .historyHigh (decide (s.tab.line.watermark ≤ countSlots isCollectable s.hst)) s

/-- The counter after an open takes `n` (R170). -/
def counterAfter (n : Nat) : Nat := if n = Config.longMax then 1 else n + 1

/-- A record as an open writes it (R173). -/
def newRecord (n : Nat) (st : Station) (idx : Fin 16) (rev : Nat) (time : Option Stamp) : Record :=
  { number := n, station := st, recipeIndex := idx, revision := rev, verdict := .good, flags := 0
    openedAt := time, closedAt := none, charge := none, weighedAt := none, cure := none, demould := none }

/-- Open a record with number `n` in FREE slot `i` (R173), and judge HISTORY_FULL (R181). -/
def openRecord (st : Station) (idx : Fin 16) (rev : Nat) (i : Fin 48) (n : Nat) (s : Block) : Block :=
  judgeFull (modHst (fun h =>
    { h with slots := vset h.slots i (.held .opened (newRecord n st idx rev h.lineTime))
             order := h.order ++ [i], counter := some (counterAfter n) }) s)

/-- The slot of an OPEN record closed: closed-at time, verdict, state CLOSED (R175). -/
def closeSlot (number : Nat) (time : Option Stamp) (sl : HistorySlot) : HistorySlot := match sl with
  | .held .opened r =>
    if r.number = number then .held .closed { r with closedAt := time, verdict := verdictOf r.flags } else sl
  | _ => sl

/-- Close the OPEN record with this number (R175), and judge HISTORY_HIGH (R181). -/
def closeRecord (number : Nat) (s : Block) : Block :=
  judgeHigh (modHst (fun h => { h with slots := vmap (closeSlot number h.lineTime) h.slots }) s)

/-- Write a record's charge wait; ignored while the charge part is not present (R73, R174). -/
def withWait (w : Nat) (r : Record) : Record := { r with charge := r.charge.map fun c => { c with wait := w } }

/-! ### The PART payload (R25) -/

/-- Six bytes of a time stamp. -/
def stampBytes (t : Stamp) : List Byte := leBytes 4 t.sec ++ leBytes 2 t.ms

/-- The charge part (R25): the accepted weight is 0 unless ACCEPTED. -/
def chargeBytes (c : ChargePart) : List Byte :=
  leBytes 1 c.attempts ++ leBytes 1 (chargeCode c.status) ++
    leInt 4 (if c.status = .accepted then c.weight else 0) ++ leBytes 4 c.wait

/-- The cure part (R25). -/
def cureBytes (c : CurePart) : List Byte :=
  leBytes 2 c.accrued ++ leBytes 4 c.outOfBand ++ leInt 2 c.upperMin ++ leInt 2 c.upperMax ++ leInt 2 c.lowerMin ++
    leInt 2 c.lowerMax ++ leBytes 2 c.peakTonnage

/-- The demould part (R25). -/
def demouldBytes (d : DemouldPart) : List Byte :=
  leBytes 1 d.completed ++ leBytes 1 d.skipped ++ leBytes 1 d.retries ++ leBytes 1 d.stalls ++ [d.stuckUnion] ++
    leBytes 2 d.peakForce ++ leBytes 4 d.duration

/-- The bytes of an optional part. -/
def partBytes {α : Type} (f : α → List Byte) : Option α → List Byte
  | some x => f x
  | none => []

/-- The PART payload of a record: presence byte, fixed part, then the parts present, in the order of R25. -/
def partPayload (r : Record) : List Byte :=
  leBytes 1 (presenceByte r) ++ leBytes 4 r.number ++ leBytes 1 (stationNum r.station) ++
    leBytes 1 r.recipeIndex.val ++ leBytes 1 r.revision ++ leBytes 1 (verdictCode r.verdict) ++
    leBytes 2 r.flags.toNat ++ partBytes stampBytes r.openedAt ++ partBytes stampBytes r.closedAt ++
    partBytes chargeBytes r.charge ++ (if r.charge.isSome then partBytes stampBytes r.weighedAt else []) ++
    partBytes cureBytes r.cure ++ partBytes demouldBytes r.demould

/-! ### Collection (R176, R177) -/

/-- The numbers of the oldest `c` records in CLOSED or SENT, in record order (R176). -/
def selectOldest (c : Nat) (h : Hst) : List Nat :=
  ((h.order.filter fun i => isCollectable (vget h.slots i)).map fun i => slotNumber (vget h.slots i)).take c

/-- The record with this number among the CLOSED and SENT ones. -/
def collectableRecord (number : Nat) (h : Hst) : Option Record :=
  (allSlots.find? fun i => isCollectable (vget h.slots i) && decide (slotNumber (vget h.slots i) = number)).bind
    fun i => (holdingOf (vget h.slots i)).map (·.2)

/-- A CLOSED slot with this number becomes SENT (R169, R177). -/
def sendSlot (number : Nat) (sl : HistorySlot) : HistorySlot := match sl with
  | .held .closed r => if r.number = number then .held .sent r else sl
  | _ => sl

/-- The reply body of a collection: count, first and last number placed (R177). -/
def collectionBody (c : Collection) : List Byte := leBytes 1 c.placed ++ leBytes 4 c.first ++ leBytes 4 c.last

/-- An MREPLY frame (R24): tag and code copied, status, body. -/
def replyFrame (q : Sender) (code : Nat) (st : Status) (body : List Byte) : InfoFrame :=
  { dest := q.src, kind := kindMreply, payload := [q.tag, byteOf code, byteOf (statusCode st)] ++ body }

/-- Post an MREPLY (R17, R24). -/
def reply (q : Sender) (code : Nat) (st : Status) (body : List Byte) (s : Block) : Block :=
  postReply (replyFrame q code st body) s

/-- End the collection in progress once its selection is empty, posting its reply (R177, R178). -/
def endCollection (s : Block) : Block := match s.hst.collection with
  | some c =>
    if c.selection.isEmpty then
      reply c.requester codeCollect .ok (collectionBody c) (modHst (fun h => { h with collection := none }) s)
    else s
  | none => s

/-- The collection after its next frame has been placed (R177). -/
def placed (number : Nat) (rest : List Nat) (c : Collection) : Collection :=
  { c with selection := rest, placed := c.placed + 1, first := if c.placed = 0 then number else c.first
           last := number }

/-- Place the PART frame of the oldest record of the selection: compose it, address it to the requester, advance the
collection, mark the record SENT, judge HISTORY_HIGH (R177). -/
def placePart (number : Nat) (rest : List Nat) (c : Collection) (r : Record) (s : Block) : Block :=
  judgeHigh (modHst (fun h =>
    { h with slots := vmap (sendSlot number) h.slots, collection := some (placed number rest c) })
    (joinInfo { dest := c.requester.src, kind := kindPart, payload := partPayload r } s))

/-- A PART frame may join: fewer than 12 frames are held and no EVENT frame waits (R18). -/
def partMayJoin (s : Block) : Bool := decide (s.rpu.infoQ.length < Config.partRoom) && !eventWaiting s

/-- Offer PART frames one after another while there is room (R177); `fuel` bounds the selection. A number that no
CLOSED or SENT record holds is passed over. -/
def offerParts : Nat → Block → Block
  | 0, s => s
  | fuel + 1, s => match s.hst.collection with
    | none => s
    | some c => match c.selection with
      | [] => s
      | number :: rest =>
        if partMayJoin s then
          match collectableRecord number s.hst with
          | some r => offerParts fuel (placePart number rest c r s)
          | none => offerParts fuel (modHst (fun h => { h with collection := some { c with selection := rest } }) s)
        else s

/-- The offering of a collection: frames join while they may, and an emptied selection ends it (R177). -/
def serveCollection (s : Block) : Block := match s.hst.collection with
  | some c => endCollection (offerParts c.selection.length s)
  | none => s

/-! ### Release (R178, R179) -/

/-- A slot that RELEASE r frees: SENT with a number at most r (R179). -/
def released (r : Nat) (sl : HistorySlot) : Bool := isHolding .sent sl && decide (slotNumber sl ≤ r)

/-- Free every SENT record numbered at most `r`; the freed records leave the record order and the selection (R178,
R179). -/
def freeSent (r : Nat) (h : Hst) : Hst :=
  let gone := (allSlots.filter fun i => released r (vget h.slots i)).map fun i => slotNumber (vget h.slots i)
  { h with slots := vmap (fun sl => if released r sl then .free else sl) h.slots
           order := h.order.filter fun i => !released r (vget h.slots i)
           collection := h.collection.map fun c =>
             { c with selection := c.selection.filter fun n => decide (n ∉ gone) } }

/-- How many records RELEASE r frees (R179). -/
def releaseCount (r : Nat) (h : Hst) : Nat := countSlots (released r) h

/-! ### Line time (R172) -/

/-- One millisecond of line time. -/
def tickStamp (t : Stamp) : Stamp :=
  if t.ms + 1 ≤ 999 then { t with ms := t.ms + 1 }
  else { sec := if t.sec = Config.longMax then 0 else t.sec + 1, ms := 0 }

/-! ### Summary (R180) -/

/-- Slot state codes of HISTORY_SUMMARY (R180). -/
def slotCode : HistorySlot → Nat
  | .free => 0
  | .held .opened _ => 1
  | .held .closed _ => 2
  | .held .sent _ => 3

/-- The numbers of the non-FREE records. -/
def heldNumbers (h : Hst) : List Nat :=
  allSlots.filterMap fun i => (holdingOf (vget h.slots i)).map fun x => x.2.number

/-- The 71-byte body of HISTORY_SUMMARY (R180). -/
def summaryBody (h : Hst) : List Byte :=
  let nums := heldNumbers h
  leBytes 1 (countSlots isFree h) ++ leBytes 1 (countSlots (isHolding .opened) h) ++
    leBytes 1 (countSlots (isHolding .closed) h) ++ leBytes 1 (countSlots (isHolding .sent) h) ++
    leBytes 4 (nums.min?.getD 0) ++ leBytes 4 (nums.max?.getD 0) ++ leBytes 4 (h.counter.getD 0) ++
    leBytes 1 (bitAt 0 h.lineTime.isSome + bitAt 1 h.collection.isSome) ++
    stampBytes (h.lineTime.getD { sec := 0, ms := 0 }) ++
    (allSlots.map fun i => byteOf (slotCode (vget h.slots i)))

end Sys2Proof.Machine
end

