-- ==== Sys2Proof/Machine/Scale.lean ====
section
/-! DEFINITION. The Scale Unit (chapter 7) up to what it tells a station: conversion, window, stability, overload,
claims and grant, the states of a session, and the outcome of a capture. What a station does with an outcome stands in
Machine/Station.lean. -/

namespace Sys2Proof.Machine

open Sys2Proof

/-- Change the Scale Unit. -/
def modScu (f : Scu → Scu) (s : Block) : Block := { s with scu := f s.scu }

/-- Change the session, where there is one. -/
def modSession (f : Session → Session) (s : Block) : Block :=
  modScu (fun u => { u with session := u.session.map f }) s

/-! ### Weights (R124, R126) -/

/-- Gross weight of a raw count (R124). -/
def grossOf (l : LineSettings) (raw : Int) : Int := roundDiv ((raw - l.zero) * (l.span : Int)) 65536

/-- Window length N (R54, R123). -/
def windowLength (l : LineSettings) : Nat := 2 ^ l.windowCode

/-- The window holds N entries. -/
def windowFull (s : Block) : Bool := decide (windowLength s.tab.line ≤ s.scu.window.length)

/-- The net weights held, oldest first. -/
def netsOf (s : Block) : List Int := s.scu.window.map (·.net)

/-- The filtered net weight (R126): the rounded mean of a full window, else the newest entry, else 0. -/
def filteredNet (s : Block) : Int :=
  if windowFull s then roundDiv (netsOf s).sum (windowLength s.tab.line) else (netsOf s).getLast?.getD 0

/-- The filtered gross weight (R126). -/
def filteredGross (s : Block) : Int := filteredNet s + s.scu.tare

/-- The spread: largest minus smallest net weight held; 0 for an empty window (R126). -/
def spreadOf (s : Block) : Int := match (netsOf s).max?, (netsOf s).min? with
  | some hi, some lo => hi - lo
  | _, _ => 0

/-- The scale is empty: stable, and the filtered net weight at most the empty limit (R127). -/
def scaleEmpty (s : Block) : Bool := s.scu.stable && decide (filteredNet s ≤ (s.tab.line.emptyLimit : Int))

/-- The stable flag after a reading event, from the table of R127. -/
def stableAfter (s : Block) : Bool :=
  let band := if s.scu.stable then s.tab.line.leaveBand else s.tab.line.stableBand
  windowFull s && decide (spreadOf s ≤ (band : Int))

/-- Judge overload and SCALE_OVERLOAD against the latest gross (R129). -/
def judgeOverload (s : Block) : Block :=
  let exceeds := match s.scu.latestGross with
    | some g => decide ((s.tab.line.capacity : Int) < g)
    | none => false
  setLevel .scaleOverload exceeds (modScu (fun u => { u with overload := exceeds }) s)

/-! ### The charge part (R145) -/

/-- Write the charge part's attempts, status and weight; the part becomes present with a charge wait of 0 (R137). -/
def withCharge (attempts : Nat) (st : ChargeStatus) (weight : Int) (r : Record) : Record :=
  { r with charge := some { attempts := attempts, status := st, weight := weight
                            wait := (r.charge.map (·.wait)).getD 0 } }

/-- Write the status and weight of a charge part already present (R145, R174). -/
def withChargeStatus (st : ChargeStatus) (weight : Int) (r : Record) : Record :=
  { r with charge := r.charge.map fun c => { c with status := st, weight := weight } }

/-! ### Notices (R144) -/

/-- Post a notice of the session: owner, attempt, cause and weight (R23). -/
def notify (u : Session) (n : Notice) (attempt : Nat) (c : WeighCause) (w : Int) (s : Block) : Block :=
  postWeigh { station := u.owner, notice := n, attempt := attempt, cause := c, weight := w } s

/-- Post DISCARD for the charge accepted for a station (R144). -/
def postDiscard (st : Station) (s : Block) : Block := match s.scu.accepted.get st with
  | some a => postWeigh { station := st, notice := .discard, attempt := a.attempts, cause := .none
                          weight := a.weight } s
  | none => s

/-! ### LOADING (R137, R138) -/

/-- The NEAR_TARGET threshold: floor of target × early fraction / 1000 (R138). -/
def nearThreshold (u : Session) : Int := ((u.target * u.early / 1000 : Nat) : Int)

/-- The NEAR_TARGET test (R138). -/
def nearTest (s : Block) : Block := match s.scu.session with
  | some u =>
    if !u.nearSent && decide (nearThreshold u ≤ filteredNet s) then
      modSession (fun v => { v with nearSent := true }) (notify u .nearTarget u.attempts .none (filteredNet s) s)
    else s
  | none => s

/-- The dwell condition (R138). -/
def dwellCondition (s : Block) : Bool :=
  s.scu.stable && decide ((s.tab.line.emptyLimit : Int) < filteredNet s) && !s.scu.overload

/-- The stable dwell test (R138): start, stop or leave the stable dwell timer. -/
def dwellTest (s : Block) : Block :=
  if dwellCondition s then
    if s.scu.dwell.isNone then
      modScu (fun u => { u with dwell := startTimer ((s.tab.line.dwellCode + 1) * 100) }) s
    else s
  else modScu (fun u => { u with dwell := none }) s

/-- An evaluation in LOADING (R138). -/
def evalLoading (s : Block) : Block := dwellTest (nearTest s)

/-- The evaluation that a window clearing or a Line Settings write calls for: only in LOADING (R138). -/
def evalIfLoading (s : Block) : Block := match s.scu.session with
  | some u => if u.state = .loading then evalLoading s else s
  | none => s

/-- Entry into LOADING: one more attempt begins (R137). -/
def enterLoading (s : Block) : Block := match s.scu.session with
  | some u =>
    let n := u.attempts + 1
    evalLoading
      (modOpenRecord u.owner (withCharge n .pending 0)
        (modScu (fun v => { v with loading := startTimer (s.tab.line.maxLoading * 1000) })
          (modSession (fun v => { v with state := .loading, attempts := n, nearSent := false }) s)))
  | none => s

/-! ### Claims, grant and end of a session (R134 to R136, R143) -/

/-- The evaluation in CLEARING (R136). -/
def evalClearing (s : Block) : Block := match s.scu.session with
  | some u =>
    if scaleEmpty s then enterLoading s
    else if s.scu.stable && !u.clearSent then
      modSession (fun v => { v with clearSent := true }) (notify u .clearScale 0 .none (filteredNet s) s)
    else s
  | none => s

/-- A session as a grant opens it, with the figures of the owner's snapshot (R134, R135). -/
def newSession (st : Station) (r : Recipe) : Session :=
  { owner := st, state := .clearing, attempts := 0, target := r.target, tolLow := r.tolLow, tolHigh := r.tolHigh
    early := r.early, maxAttempts := r.maxAttempts, nearSent := false, clearSent := false }

/-- Grant the oldest claim when there is no session (R134). A claim is a station's in a cycle; a claim without a cycle
context, which no event leaves, is dropped (log 32). -/
def grantOldest (s : Block) : Block := match s.scu.session, s.scu.claims with
  | none, st :: rest =>
    let s1 := modScu (fun u => { u with claims := rest }) s
    match (stcOf s st).cycle with
    | some c => evalClearing (modScu (fun u => { u with session := some (newSession st c.recipe) }) s1)
    | none => s1
  | _, _ => s

/-- A claim post (R134). -/
def postClaim (st : Station) (s : Block) : Block :=
  grantOldest (modScu (fun u => { u with claims := u.claims ++ [st] }) s)

/-- The session ends: the loading timer stops (R140). DEDUCED (log 43): the stable dwell timer stops too, also where a session
in LOADING ends by CANCEL or by its owner's leaving, for which R133, R135 and R140 do not say so. -/
def endSession (s : Block) : Block :=
  modScu (fun u => { u with session := none, dwell := none, loading := none }) s

/-- The session of a station ends by CANCEL or by its owner's leaving: in LOADING, SETTLING or REJECTED the charge
part is marked CANCELLED (R133, R135). -/
def cutSession (u : Session) (s : Block) : Block :=
  let s1 := endSession s
  match u.state with
  | .loading | .settling | .rejected => modOpenRecord u.owner (withChargeStatus .cancelled 0) s1
  | .clearing | .accepted => s1

/-- Withdraw a station's claim (R133, R135). -/
def withdrawClaim (st : Station) (s : Block) : Block :=
  modScu (fun u => { u with claims := u.claims.filter fun c => decide (c ≠ st) }) s

/-- A station owns the session. -/
def ownsSession (st : Station) (s : Block) : Bool := s.scu.session.any fun u => decide (u.owner = st)

/-- A station leaves CHARGING and PRESS_LOAD (R135): its session ends and the oldest claim is granted, or its waiting
claim is withdrawn. -/
def leaveScale (st : Station) (s : Block) : Block := match s.scu.session with
  | some u => if u.owner = st then grantOldest (cutSession u s) else withdrawClaim st s
  | none => withdrawClaim st s

/-- The accepted charge of a station becomes none when it leaves PRESS_LOAD (R141). -/
def dropAccepted (st : Station) (s : Block) : Block :=
  modScu (fun u => { u with accepted := u.accepted.set st none }) s

/-! ### Capture and reject, the Scale Unit's part (R141, R142) -/

/-- What a session's attempt came to. -/
inductive Outcome where
  | accepted (owner : Station)
  | finalReject (owner : Station)
  | retry
  deriving DecidableEq, Repr

/-- A reject (R142) up to what it tells the station: steps 1 to 4, or entry into REJECTED. -/
def rejectAttempt (u : Session) (c : WeighCause) (w : Int) (s : Block) : Block × Outcome :=
  let s1 := notify u .rejected u.attempts c w (modScu (fun v => { v with dwell := none, loading := none }) s)
  let s2 := latchCond .chargeRejected (modOpenRecord u.owner (withChargeStatus .rejected 0) s1)
  if u.maxAttempts ≤ u.attempts then (grantOldest (endSession s2), .finalReject u.owner)
  else (modSession (fun v => { v with state := .rejected }) s2, .retry)

/-- Write the accepted charge and, with a valid line time, the weighed-at time (R141). -/
def withAccepted (w : Int) (time : Option Stamp) (r : Record) : Record :=
  let r1 := withChargeStatus .accepted w r
  match time with
  | some t => { r1 with weighedAt := some t }
  | none => r1

/-- An ACCEPT (R141), steps 1 to 4. -/
def acceptAttempt (u : Session) (w : Int) (s : Block) : Block :=
  let s1 := notify u .accepted u.attempts .none w (modScu (fun v => { v with dwell := none, loading := none }) s)
  let s2 := modOpenRecord u.owner (withAccepted w s1.hst.lineTime) s1
  let s3 := modScu (fun v =>
    { v with accepted := v.accepted.set u.owner (some { weight := w, attempts := u.attempts }) }) s2
  modSession (fun v => { v with state := .accepted }) s3

/-- A capture: the filtered net weight decides the attempt, bounds inclusive (R141). -/
def captureAttempt (u : Session) (s : Block) : Block × Outcome :=
  let w := filteredNet s
  if w < (u.target : Int) - u.tolLow then rejectAttempt u .under w s
  else if (u.target : Int) + u.tolHigh < w then rejectAttempt u .over w s
  else (acceptAttempt u w s, .accepted u.owner)

/-- A loading timeout: reject with cause TIMEOUT and the filtered net weight (R140, R142). -/
def timeoutAttempt (u : Session) (s : Block) : Block × Outcome := rejectAttempt u .timeout (filteredNet s) s

/-! ### Window (R125, R128) -/

/-- Clear the reading window: no entry, not stable, no stable dwell (R128); in LOADING this is an evaluation (R138). -/
def clearWindow (s : Block) : Block :=
  evalIfLoading (modScu (fun u => { u with window := [], stable := false, dwell := none }) s)

/-- Steps 1 to 5 of a SCALE_RAW reading event (R125). -/
def takeReading (raw : Int) (s : Block) : Block :=
  let gross := grossOf s.tab.line raw
  let s1 := judgeOverload (modScu (fun u => { u with latestGross := some gross }) s)
  let entry : Reading := { raw := raw, net := gross - s.scu.tare }
  let n := windowLength s.tab.line
  let s2 := modScu (fun u => { u with window := (if n ≤ u.window.length then u.window.tail else u.window) ++ [entry] }) s1
  modScu (fun u => { u with stable := stableAfter s2 }) s2

end Sys2Proof.Machine
end

