-- ==== Sys2Proof/Machine/Station.lean ====
section
/-! DEFINITION. The Station Controller (chapter 4) but for what it hands to the Demould Sequencer: heat-ready, the
cycle-open test, opening and closing a cycle, PRESS_LOAD, CURING and its exits, the cure gate. -/

namespace Sys2Proof.Machine

open Sys2Proof

/-- The state of a station. -/
def stateOf (s : Block) (st : Station) : StationState := (stcOf s st).state

/-- Put a station into a state. -/
def setState (st : Station) (x : StationState) (s : Block) : Block := modStc st (fun c => { c with state := x }) s

/-- The six cycle states (R59). -/
def isCycleState : StationState → Bool
  | .charging | .pressLoad | .curing | .opening | .demoulding | .held => true
  | .off | .standby | .preheat | .ready => false

/-- The recipe a station works by: the snapshot in a cycle, else the bound recipe as the table stands (R52, R58). -/
def recipeFor (s : Block) (st : Station) : Option Recipe := match (stcOf s st).cycle with
  | some c => some c.recipe
  | none => (stcOf s st).bound.map (vget s.tab.recipes)

/-- The zone in-band record shows every enabled zone of the station in band (R66). -/
def allInBand (s : Block) (st : Station) : Bool := (zonesOf s st).all fun z => vget (stcOf s st).inBand z

/-! ### NO_CYCLE (R69) -/

/-- Hold the cause of NO_CYCLE and drive its level. -/
def setNoCycle (st : Station) (cause : NoCycle) (s : Block) : Block :=
  setLevel (.noCycle st) (decide (cause ≠ .none)) (modStc st (fun c => { c with noCycle := cause }) s)

/-! ### Settle timer and heat-ready (R66, R67) -/

/-- The states in which the settle timer may run (R66). -/
def settleMayRun : StationState → Bool
  | .off | .standby => false
  | _ => true

/-- Start the settle timer at an event that finds it stopped and every enabled zone in band (R66). -/
def startSettle (st : Station) (s : Block) : Block :=
  let c := stcOf s st
  if settleMayRun c.state && c.settle.isNone && allInBand s st then
    match recipeFor s st with
    | some r => modStc st (fun c => { c with settle := startTimer (r.settle * 1000) }) s
    | none => s
  else s

/-- A READY station goes to PREHEAT; NO_CYCLE stops being present (R67, R69). -/
def readyToPreheat (st : Station) (s : Block) : Block :=
  if stateOf s st = .ready then setNoCycle st .none (setState st .preheat s) else s

/-- Heat-ready is cleared by an out-of-band report: the settle timer stops, CLOSE_OK is cleared, a READY station goes
to PREHEAT (R66, R67, R84). -/
def clearHeat (st : Station) (s : Block) : Block :=
  readyToPreheat st (modStc st (fun c => { c with settle := none, heatReady := false, closeOk := false }) s)

/-! ### The cure gate (R75, R76) -/

/-- CLOSED is FRESH with level 1. -/
def closedFresh (s : Block) (st : Station) : Bool :=
  isFresh s (.stationSignal st .closed) && decide (heldOf s (.stationSignal st .closed) = 1)

/-- TONNAGE is FRESH with a held value at least `m`. -/
def tonnageFresh (s : Block) (st : Station) (m : Nat) : Bool :=
  isFresh s (.stationSignal st .tonnage) && decide ((m : Int) ≤ heldOf s (.stationSignal st .tonnage))

/-- The out-of-band time is past the allowance; an allowance of 0 is passed by an interval of any length, from its first
moment on (R76, log 27). -/
def allowanceBroken (c : Cycle) : Bool :=
  decide (c.recipe.allowance * 1000 < c.outOfBand) || (c.outCounting && decide (c.recipe.allowance = 0))

/-- Set OUT_OF_BAND where the allowance is passed; taken wherever the count starts or stops, so that no interval ends
without it (R76). -/
def judgeAllowance (st : Station) (s : Block) : Block := match (stcOf s st).cycle with
  | some c => if allowanceBroken c then setFlag st .outOfBand s else s
  | none => s

/-- A cycle context after the gate is judged: with the gate closed, a completion that is due and not yet taken lapses and
the accrual stops short of the cure time (R75, R76, log 34). -/
def gatedCycle (shut tonnage band : Bool) (c : Cycle) : Cycle :=
  let gate := shut && tonnage && band
  { c with accruing := gate, accrualUp := c.accrualUp && gate, outCounting := shut && !band }

/-- Judge the cure gate and the out-of-band count of a station in CURING (R75, R76). -/
def judgeGate (st : Station) (s : Block) : Block :=
  if stateOf s st = .curing then
    judgeAllowance st (modCycle st (fun c =>
      gatedCycle (closedFresh s st) (tonnageFresh s st c.recipe.minTonnage) (allInBand s st) c) s)
  else s

/-- A zone of the station reports in band or out of band (R66, R67, R75). -/
def zoneReport (st : Station) (z : Fin 32) (band : Bool) (s : Block) : Block :=
  let s1 := modStc st (fun c => { c with inBand := vset c.inBand z band }) s
  judgeGate st (if band then startSettle st s1 else clearHeat st s1)

/-! ### Opening a cycle (R51, R57, R68 to R70) -/

/-- The walk of a chain: the steps visited up to END, or `none` where it fails; `fuel` is how many more steps it may
visit (R51). -/
def walkChain (steps : Vector StepEntry 64) : Nat → List (Fin 64) → Fin 64 → Option (List StepCopy)
  | 0, _, _ => none
  | fuel + 1, seen, i =>
    let e := vget steps i
    if !e.used || decide (i ∈ seen) then none
    else match e.next with
      | none => some [e.copy]
      | some j => (walkChain steps fuel (i :: seen) j).map (e.copy :: ·)

/-- The chain of a recipe, valid within 16 steps (R51). -/
def chainOf (s : Block) (r : Recipe) : Option (List StepCopy) := walkChain s.tab.steps 16 [] r.firstStep

/-- The cycle context as an open initialises it (R57, R70). -/
def newCycle (n : Nat) (idx : Fin 16) (r : Recipe) (steps : List StepCopy) : Cycle :=
  { record := n, recipeIndex := idx, recipe := r, steps := steps, waitRunning := false, chargeWait := 0
    accruing := false, accrued := 0, accrualUp := false, outCounting := false, outOfBand := 0
    elapsedRunning := false, elapsed := 0, peakTonnage := 0 }

/-- Open a cycle of a station with record number `n` in slot `i` (R70). -/
def openCycle (st : Station) (idx : Fin 16) (r : Recipe) (steps : List StepCopy) (i : Fin 48) (n : Nat)
    (s : Block) : Block :=
  postClaim st
    (modStc st (fun c => { c with state := .charging, cycle := some (newCycle n idx r steps) })
      (openRecord st idx r.revision i n (setNoCycle st .none s)))

/-- The cycle-open test of a READY station with its production flag set, and what it leads to (R68 to R70). With the
production flag clear the test fails and NO_CYCLE stays absent. -/
def cycleOpenTest (st : Station) (s : Block) : Block :=
  let c := stcOf s st
  if decide (c.state = .ready) && c.production then
    match availableSlot s.hst, s.hst.counter, c.bound with
    | none, _, _ => setNoCycle st .historyFull s
    | some _, none, _ => setNoCycle st .recordBaseUnset s
    | some _, some _, none => setNoCycle st .recipeInvalid s
    | some i, some n, some idx =>
      match chainOf s (vget s.tab.recipes idx) with
      | some steps => openCycle st idx (vget s.tab.recipes idx) steps i n s
      | none => setNoCycle st .recipeInvalid s
  else s

/-- An event at which both stations may take the test (R68). Which goes first when both are READY is the free value
`Config.stationFirst` (log 7). -/
def testStations (s : Block) : Block :=
  if decide (stateOf s .a = .ready) && decide (stateOf s .b = .ready) then
    let first := Config.stationFirst s.choices
    cycleOpenTest (otherStation first) (cycleOpenTest first { s with choices := s.choices + 1 })
  else cycleOpenTest .b (cycleOpenTest .a s)

/-- A running settle timer reaches its length (R67, R84). -/
def settleDone (st : Station) (s : Block) : Block :=
  let s1 := modStc st (fun c =>
    { c with settle := none, heatReady := true, closeOk := decide (c.state = .pressLoad) || c.closeOk }) s
  if stateOf s st = .preheat then cycleOpenTest st (setState st .ready s1) else s1

/-! ### Closing a cycle (R73, R82, R83) -/

/-- The charge-wait timer stops: its time is written, and judged against the maximum charge wait (R73). -/
def stopWait (st : Station) (s : Block) : Block := match (stcOf s st).cycle with
  | some c =>
    if c.waitRunning then
      let s1 := modOpenRecord st (withWait c.chargeWait) (modCycle st (fun c => { c with waitRunning := false }) s)
      if c.recipe.maxWait * 1000 < c.chargeWait then
        latchCond (.chargeAgedSeen st) (setFlag st .chargeAged s1)
      else s1
    else s
  | none => s

/-- Write a charge wait still running, without the CHARGE_AGED test (R73, R82). -/
def writeWait (st : Station) (s : Block) : Block := match (stcOf s st).cycle with
  | some c => if c.waitRunning then modOpenRecord st (withWait c.chargeWait) s else s
  | none => s

/-- Close a station's cycle (R82). -/
def closeCycle (st : Station) (s : Block) : Block := match (stcOf s st).cycle with
  | some c =>
    let s1 := latchCond (.cycleClosed st) (closeRecord c.record (writeWait st s))
    let s2 := dropAccepted st (modStc st (fun c => { c with cycle := none, closeOk := false, openOk := false }) s1)
    if (stcOf s2 st).heatReady then cycleOpenTest st (setState st .ready s2)
    else startSettle st (setState st .preheat s2)
  | none => s

/-- The cycle ends from CHARGING: the scale is left, ABORTED is set, the cycle closes (R71, R83, R135). -/
def endFromCharging (st : Station) (s : Block) : Block := closeCycle st (setFlag st .aborted (leaveScale st s))

/-- The cycle ends from PRESS_LOAD: as from CHARGING, with the DISCARD notice posted first (R83, R144, log 19). -/
def endFromPressLoad (st : Station) (s : Block) : Block := endFromCharging st (postDiscard st s)

/-- A final reject reaches its station (R71, R142). -/
def finalReject (st : Station) (s : Block) : Block :=
  if stateOf s st = .charging then endFromCharging st s else s

/-- A cancellation reaches a station (R71, R133). -/
def cancelled (st : Station) (s : Block) : Block := match stateOf s st with
  | .charging => endFromCharging st s
  | .pressLoad => endFromPressLoad st s
  | _ => s

/-! ### PRESS_LOAD and CURING (R71 to R77) -/

/-- A cure part with every field 0 (R72). -/
def emptyCure : CurePart :=
  { accrued := 0, outOfBand := 0, upperMin := 0, upperMax := 0, lowerMin := 0, lowerMax := 0, peakTonnage := 0 }

/-- Some enabled zone of the station is in FAULT (R77, R103). -/
def anyFault (s : Block) (st : Station) : Bool := (zonesOf s st).any fun z => decide ((zoneOf s z).state = .fault)

/-- The cycle context at entry into CURING (R72). -/
def startCure (tonnage : Int) (c : Cycle) : Cycle :=
  { c with elapsedRunning := true, elapsed := 0, peakTonnage := tonnage.toNat }

/-- Both platen summary markers of a station set to empty (R107). -/
def clearMarkers (st : Station) (s : Block) : Block :=
  { s with zrg := { s.zrg with markers := s.zrg.markers.set st { upper := false, lower := false } } }

/-- Entry into CURING (R72); the scale is left first (R135). -/
def enterCuring (st : Station) (s : Block) : Block :=
  let s1 := dropAccepted st (stopWait st (leaveScale st s))
  let s2 := modStc st (fun c => { c with state := .curing, closeOk := false }) s1
  let s3 := modOpenRecord st (fun r => { r with cure := some emptyCure }) s2
  let s4 := clearMarkers st (modCycle st (startCure (heldOf s (.stationSignal st .tonnage))) s3)
  let s5 := judgeGate st s4
  if anyFault s5 st then setFlag st .heatFault s5 else s5

/-- The test of R72, taken in PRESS_LOAD. -/
def cureTest (st : Station) (s : Block) : Block := match stateOf s st, (stcOf s st).cycle with
  | .pressLoad, some c =>
    if closedFresh s st && tonnageFresh s st c.recipe.minTonnage then enterCuring st s else s
  | _, _ => s

/-- ACCEPT reaches its station (R71). -/
def acceptCharge (st : Station) (s : Block) : Block :=
  if stateOf s st = .charging then
    cureTest st
      (modCycle st (fun c => { c with waitRunning := true, chargeWait := 0 })
        (modStc st (fun c => { c with state := .pressLoad, closeOk := c.heatReady }) s))
  else s

/-- A CLOSED rising edge in a cycle state: without CLOSE_OK it sets UNPERMITTED_CLOSE; in PRESS_LOAD it stops the
charge-wait timer (R73). -/
def closedRising (st : Station) (s : Block) : Block :=
  let c := stcOf s st
  if isCycleState c.state then
    let s1 := if c.closeOk then s else setFlag st .unpermittedClose s
    if c.state = .pressLoad then stopWait st s1 else s1
  else s

/-- A TONNAGE reading in CURING raises the peak (R77). -/
def raisePeak (st : Station) (v : Int) (s : Block) : Block :=
  modCycle st (fun c => { c with peakTonnage := max c.peakTonnage v.toNat }) s

/-- What leaving CURING writes into the cure part (R74). -/
def withCure (c : Cycle) (p : CurePart) : CurePart :=
  { p with accrued := c.accrued / 100, outOfBand := c.outOfBand / 100, peakTonnage := c.peakTonnage }

/-- Leaving CURING: the counts and the elapsed timer stop and the cure part is written (R74), the out-of-band time judged
once more where it stops (R76). -/
def exitCuring (st : Station) (s : Block) : Block := match (stcOf s st).cycle with
  | some c =>
    modOpenRecord st (fun r => { r with cure := r.cure.map (withCure c) })
      (modCycle st (fun c =>
        { c with accruing := false, accrualUp := false, outCounting := false, elapsedRunning := false })
        (judgeAllowance st s))
  | none => s

/-- Entry into OPENING from CURING, with OPEN_OK set (R78, R84). -/
def enterOpening (st : Station) (s : Block) : Block :=
  modStc st (fun c => { c with state := .opening, openOk := true }) (exitCuring st s)

/-! ### What the Scale Unit tells a station (R141, R142) -/

/-- A capture or timeout, with the outcome delivered to its station. -/
def deliverOutcome (x : Block × Outcome) : Block := match x.2 with
  | .accepted st => acceptCharge st x.1
  | .finalReject st => finalReject st x.1
  | .retry => x.1

/-- A capture (R141). -/
def capture (s : Block) : Block := match s.scu.session with
  | some u => deliverOutcome (captureAttempt u s)
  | none => s

/-- The evaluation in SETTLING (R139). -/
def evalSettling (s : Block) : Block := if s.scu.stable && !s.scu.overload then capture s else s

/-- The evaluation of the session at a reading event, by its state (R136, R138, R139, R143). -/
def evalSession (s : Block) : Block := match s.scu.session with
  | none => s
  | some u => match u.state with
    | .clearing => evalClearing s
    | .loading => evalLoading s
    | .settling => evalSettling s
    | .accepted => if scaleEmpty s then grantOldest (endSession s) else s
    | .rejected => if scaleEmpty s then enterLoading s else s

/-- A SCALE_RAW reading event (R125). -/
def scaleReading (raw : Int) (s : Block) : Block := evalSession (takeReading raw s)

/-- A SCALE_DONE rising edge (R139). -/
def scaleDone (s : Block) : Block := match s.scu.session with
  | some u =>
    if u.state = .loading then
      evalSettling (modScu (fun v => { v with dwell := none })
        (modSession (fun v => { v with state := .settling }) s))
    else s
  | none => s

end Sys2Proof.Machine
end

