-- ==== Sys2Proof/Machine/Demould.lean ====
section
/-! DEFINITION. The Demould Sequencer (chapter 8): orders and the issue check, the chain, stalls and retries, the
isolation scan, hold, halt, release, reset, homing and completion. -/

namespace Sys2Proof.Machine

open Sys2Proof

/-! ### What the sequencer reads -/

/-- The step list of the snapshot; empty without a cycle. -/
def stepsOf (s : Block) (st : Station) : List StepCopy := match (stcOf s st).cycle with
  | some c => c.steps
  | none => []

/-- The current step: step position `p` counts from 1 (R147). -/
def currentStep (s : Block) (st : Station) : Option StepCopy := match (dmsOf s st).stepPos with
  | 0 => none
  | n + 1 => (stepsOf s st)[n]?

/-- The last listed step. -/
def lastStep (s : Block) (st : Station) : Option StepCopy := (stepsOf s st).getLast?

/-- The held EJECT_POS. -/
def ejectPos (s : Block) (st : Station) : Int := heldOf s (.stationSignal st .ejectPos)

/-- The issue check: both ejector signals FRESH (R148). -/
def issueOk (s : Block) (st : Station) : Bool :=
  isFresh s (.stationSignal st .ejectPos) && isFresh s (.stationSignal st .ejectForce)

/-- The HOLD level is 1, whatever the signal's freshness (R160). -/
def holdOn (s : Block) (st : Station) : Bool := decide (heldOf s (.stationSignal st .hold) = 1)

/-- A moving state (R147). -/
def isMoving (d : Dms) : Bool := match d.state with
  | .stroking | .retracting | .homing => true
  | .probing => decide (d.probePhase = .out) || decide (d.probePhase = .back)
  | _ => false

/-- The set holding one group. -/
def groupBit (g : Nat) : BitVec 8 := 1#8 <<< g

/-- The lowest group of a mask that is at least `g`, if any. -/
def nextGroup (mask : BitVec 8) (g : Nat) : Option Nat :=
  (List.range 8).find? fun k => decide (g ≤ k) && mask.getLsbD k

/-! ### The demould part (R166) -/

/-- Write into the demould part of the open record; ignored while it is not present (R174). -/
def modDemould (st : Station) (f : DemouldPart → DemouldPart) (s : Block) : Block :=
  modOpenRecord st (fun r => { r with demould := r.demould.map f }) s

/-- One more of a 1-byte count (R166). -/
def bump8 (n : Nat) : Nat := min (n + 1) 255

/-- A demould part with every field 0 (R149). -/
def emptyDemould : DemouldPart :=
  { completed := 0, skipped := 0, retries := 0, stalls := 0, stuckUnion := 0, peakForce := 0, duration := 0 }

/-- A stall is counted and sets DEMOULD_RETRIED (R151, R155, R166). -/
def countStall (st : Station) (s : Block) : Block :=
  setFlag st .demouldRetried (modDemould st (fun p => { p with stalls := bump8 p.stalls }) s)

/-- An EJECT_FORCE reading raises the peak force (R151). -/
def raiseForce (st : Station) (v : Int) (s : Block) : Block :=
  modDemould st (fun p => { p with peakForce := max p.peakForce v.toNat }) s

/-! ### Orders (R148, R152) -/

/-- Post a stop order, with the fixed fields of R23: no order is in force and the step timer stops. -/
def postStop (st : Station) (s : Block) : Block :=
  modDms st (fun d => { d with order := none, stepTimer := none })
    (postStroke st { mask := 0, target := 0, ceiling := 1, speed := 0 } s)

/-- Post a motion order, which becomes the order in force, and start the step timer. -/
def postMotion (st : Station) (o : StrokeOrder) (timeout : Nat) (s : Block) : Block :=
  modDms st (fun d => { d with order := some o, stepTimer := startTimer timeout }) (postStroke st o s)

/-! ### Halt (R161) -/

/-- The halt causes whose stuck mask joins the record's stuck mask union (R161). -/
def causeUnites : HaltCause → Bool
  | .stall | .stallUnlocated | .retractStall => true
  | _ => false

/-- The sequencer's fields at an entry into HALTED (R161, step 2). -/
def haltedDms (cause : HaltCause) (stuck : BitVec 8) (resume : Resume) (d : Dms) : Dms :=
  let d1 := { d with state := .halted, cause := cause, stuck := stuck, resume := resume, dwellTimer := none }
  if resume = .probe then d1 else { d1 with scanFollows := false, probeGroup := none, probePhase := .none }

/-- Entry into HALTED (R161): stop order, cause, stuck mask and resume action, the union, and the station HELD with
STATION_HELD present (R80). -/
def halt (st : Station) (cause : HaltCause) (stuck : BitVec 8) (resume : Resume) (s : Block) : Block :=
  let s1 := modDms st (haltedDms cause stuck resume) (postStop st s)
  let s2 := if causeUnites cause then modDemould st (fun p => { p with stuckUnion := p.stuckUnion ||| stuck }) s1
    else s1
  setLevel (.stationHeld st) true (setState st .held s2)

/-! ### Issuing a step, homing, probing (R149, R157, R165) -/

/-- Take the retract position, if not yet taken (R149). -/
def takeRetract (st : Station) (s : Block) : Block :=
  modDms st (fun d => { d with retractPos := some (d.retractPos.getD (ejectPos s st).toNat) }) s

/-- Issue the current step with the working mask (R149). -/
def issueStep (st : Station) (s : Block) : Block := match currentStep s st with
  | none => s
  | some p =>
    if issueOk s st then
      modDms st (fun d => { d with state := .stroking })
        (postMotion st { mask := (dmsOf s st).mask, target := p.target, ceiling := p.ceiling, speed := p.speed }
          p.timeout (takeRetract st s))
    else halt st .sensor 0 .step s

/-- Enter HOMING (R165). -/
def enterHoming (st : Station) (s : Block) : Block := match lastStep s st with
  | none => s
  | some p =>
    if issueOk s st then
      modDms st (fun d => { d with state := .homing })
        (postMotion st { mask := 255, target := 0, ceiling := p.ceiling, speed := p.speed } p.timeout s)
    else halt st .sensor 0 .homing s

/-- The position every retract and probe works from (R149). -/
def retractTarget (d : Dms) : Nat := d.retractPos.getD 0

/-- Force limit of a probe's outward move (R157). -/
def scanForceOf (p : StepCopy) (percent : Nat) : Nat := max 1 (p.ceiling * percent / 100)

/-- Scan force percentage and scan travel of the snapshot. -/
def scanFigures (s : Block) (st : Station) : Nat × Nat := match (stcOf s st).cycle with
  | some c => (c.recipe.scanForce, c.recipe.scanTravel)
  | none => (0, 0)

/-- Begin the probe of group `g` with its outward move (R157). -/
def beginProbe (st : Station) (g : Nat) (s : Block) : Block := match currentStep s st with
  | none => s
  | some p =>
    let s1 := modDms st (fun d => { d with state := .probing, probeGroup := some g, probePhase := .out }) s
    if issueOk s1 st then
      postMotion st
        { mask := groupBit g, target := min 30000 (retractTarget (dmsOf s st) + (scanFigures s st).2)
          ceiling := scanForceOf p (scanFigures s st).1, speed := p.speed } p.timeout s1
    else halt st .sensor 0 .probe s1

/-- Begin the scan of the working mask (R157). -/
def beginScan (st : Station) (s : Block) : Block := match nextGroup (dmsOf s st).mask 0 with
  | some g => beginProbe st g (modDms st (fun d => { d with probeStuck := 0 }) s)
  | none => s

/-- Post the retract order of the working mask and enter RETRACTING (R155). -/
def retract (st : Station) (s : Block) : Block := match currentStep s st with
  | none => s
  | some p =>
    if issueOk s st then
      modDms st (fun d => { d with state := .retracting })
        (postMotion st { mask := (dmsOf s st).mask, target := retractTarget (dmsOf s st), ceiling := p.ceiling
                         speed := p.speed } p.timeout s)
    else halt st .sensor 0 .step s

/-! ### Boundaries (R154, R158 to R160) -/

/-- Take a resume action: issue the current step, begin the probe of the cursor, or enter HOMING (R160, R163). A probe
begun again removes its group from the probe stuck set (R163). -/
def takeAction (st : Station) (a : Resume) (s : Block) : Block := match a with
  | .none => s
  | .step => issueStep st s
  | .homing => enterHoming st s
  | .probe => match (dmsOf s st).probeGroup with
    | some g => beginProbe st g (modDms st (fun d => { d with probeStuck := d.probeStuck &&& ~~~groupBit g }) s)
    | none => s

/-- Enter PAUSED with a resume action: no order is in force and no timer runs (R160). -/
def pause (st : Station) (a : Resume) (s : Block) : Block :=
  modDms st (fun d =>
    { d with state := .paused, resume := a, order := none, stepTimer := none, dwellTimer := none }) s

/-- The step after the current one: the next listed step with its own mask and no retries, or homing (R154). -/
def advance (st : Station) (s : Block) : Block × Resume :=
  let n := (dmsOf s st).stepPos
  match (stepsOf s st)[n]? with
  | some p => (modDms st (fun d => { d with stepPos := n + 1, mask := p.mask, retries := 0 }) s, .step)
  | none => (s, .homing)

/-- The step boundary (R154). -/
def stepBoundary (st : Station) (s : Block) : Block :=
  let x := advance st s
  if (dmsOf x.1 st).abortPending then
    halt st .abort 0 x.2 (modDms st (fun d => { d with abortPending := false }) x.1)
  else if holdOn x.1 st then pause st x.2 x.1
  else takeAction st x.2 x.1

/-- The dwell ends: the step is completed and the boundary is passed (R154). -/
def dwellDone (st : Station) (s : Block) : Block :=
  stepBoundary st (modDemould st (fun p => { p with completed := bump8 p.completed })
    (modDms st (fun d => { d with dwellTimer := none }) s))

/-- Start the dwell timer with the current step's dwell; a dwell of 0 ends at once by `done` (R154, R158). -/
def startDwell (st : Station) (done : Block → Block) (s : Block) : Block := match currentStep s st with
  | none => s
  | some p => if p.dwell = 0 then done s else modDms st (fun d => { d with dwellTimer := startTimer p.dwell }) s

/-- The scan ends: halt with STALL and the groups found stuck, or STALL_UNLOCATED and the working mask (R159). -/
def endScan (st : Station) (s : Block) : Block :=
  let d := dmsOf s st
  if d.probeStuck = 0 then halt st .stallUnlocated d.mask .step s else halt st .stall d.probeStuck .step s

/-- The probe rest ends: the next group of the working mask, held back by HOLD, or the end of the scan (R158). -/
def restDone (st : Station) (s : Block) : Block :=
  let s1 := modDms st (fun d => { d with dwellTimer := none }) s
  let d := dmsOf s1 st
  match nextGroup d.mask (d.probeGroup.getD 0 + 1) with
  | some g =>
    if holdOn s1 st then pause st .probe (modDms st (fun d => { d with probeGroup := some g }) s1)
    else beginProbe st g s1
  | none => endScan st s1

/-- The outward move of a probe ends, and its return begins (R158). -/
def probeReturn (st : Station) (s : Block) : Block :=
  match currentStep s st, (dmsOf s st).probeGroup with
  | some p, some g =>
    let s1 := modDms st (fun d => { d with probePhase := .back }) s
    if issueOk s1 st then
      postMotion st { mask := groupBit g, target := retractTarget (dmsOf s st), ceiling := p.ceiling
                      speed := p.speed } p.timeout s1
    else halt st .sensor 0 .probe s1
  | _, _ => s

/-- The group under probe is stuck: a stop order, and the return (R158). -/
def probeStuckNow (st : Station) (s : Block) : Block := match (dmsOf s st).probeGroup with
  | some g =>
    probeReturn st (postStop st (modDms st (fun d => { d with probeStuck := d.probeStuck ||| groupBit g }) s))
  | none => s

/-! ### Starting and completing the chain (R149, R165) -/

/-- The sequencer's fields as a start sets them (R149, steps 1 to 3). -/
def startedDms (mask : BitVec 8) (d : Dms) : Dms :=
  { d with clock := some 0, abortPending := false, stuck := 0, probeStuck := 0, cause := .none
           scanFollows := false, retractPos := none, stepPos := 1, mask := mask, retries := 0
           resume := .none, probeGroup := none, probePhase := .none, order := none }

/-- The chain starts: the demould part becomes present and the first step is issued (R149). -/
def startChain (st : Station) (s : Block) : Block := match (stepsOf s st).head? with
  | some p =>
    issueStep st (modDms st (startedDms p.mask)
      (modOpenRecord st (fun r => { r with demould := some emptyDemould }) s))
  | none => s

/-- Entry into DONE: stop order, duration written, abort-pending cleared, completion reported (R165). -/
def chainDone (st : Station) (s : Block) : Block :=
  let n := (dmsOf s st).clock.getD 0
  closeCycle st
    (modDms st (fun d => { d with state := .done, clock := none, abortPending := false })
      (modDemould st (fun p => { p with duration := n }) (postStop st s)))

/-! ### Readings (R150, R151, R153, R155, R156, R160) -/

/-- The order in force has arrived (R150). -/
def arrived (s : Block) (st : Station) (v : Int) : Bool := match (dmsOf s st).order with
  | some o => decide ((v - (o.target : Int)).natAbs ≤ (s.tab.stations.get st).tolerance)
  | none => false

/-- An arrival in RETRACTING (R156). -/
def retractArrival (st : Station) (s : Block) : Block :=
  if (dmsOf s st).scanFollows then beginScan st (modDms st (fun d => { d with scanFollows := false }) s)
  else
    issueStep st (modDemould st (fun p => { p with retries := bump8 p.retries })
      (modDms st (fun d => { d with retries := d.retries + 1 }) s))

/-- What an arrival leads to in each state (R150); the step timer stops. -/
def arrival (st : Station) (s : Block) : Block :=
  let d := dmsOf s st
  let s1 := modDms st (fun d => { d with stepTimer := none }) s
  match d.state with
  | .stroking => startDwell st (dwellDone st) (modDms st (fun d => { d with state := .dwell }) s1)
  | .retracting => retractArrival st s1
  | .probing => match d.probePhase with
    | .out => probeReturn st s1
    | .back => startDwell st (restDone st) (modDms st (fun d => { d with probePhase := .rest }) s1)
    | _ => s
  | .homing => chainDone st s1
  | _ => s

/-- An EJECT_POS reading (R150). -/
def posReading (st : Station) (v : Int) (s : Block) : Block :=
  if isMoving (dmsOf s st) && arrived s st v then arrival st s else s

/-- Whether retries remain on the current step, and whether the scan is enabled (R155). -/
def stallFigures (s : Block) (st : Station) : Bool × Bool := match (stcOf s st).cycle with
  | some c => (decide ((dmsOf s st).retries < c.recipe.maxRetries), c.recipe.scanEnable)
  | none => (false, false)

/-- A stall in STROKING (R155). -/
def stall (st : Station) (s : Block) : Block :=
  let s1 := countStall st (postStop st s)
  let fig := stallFigures s st
  if fig.1 then retract st s1
  else if fig.2 then retract st (modDms st (fun d => { d with scanFollows := true }) s1)
  else halt st .stall (dmsOf s st).mask .step s1

/-- A counted stall that halts (R151). -/
def stallHalt (st : Station) (cause : HaltCause) (stuck : BitVec 8) (resume : Resume) (s : Block) : Block :=
  halt st cause stuck resume (countStall st (postStop st s))

/-- The force limit of the sequencer's state, if it judges force (R151). -/
def forceLimit (s : Block) (st : Station) : Option Nat :=
  let d := dmsOf s st
  match d.state with
  | .stroking | .retracting => (currentStep s st).map (·.ceiling)
  | .probing => match d.probePhase with
    | .out => (currentStep s st).map fun p => scanForceOf p (scanFigures s st).1
    | .back => (currentStep s st).map (·.ceiling)
    | _ => none
  | .homing => (lastStep s st).map (·.ceiling)
  | _ => none

/-- What a force above the limit leads to in each state (R151). -/
def forceExceeded (st : Station) (s : Block) : Block :=
  let d := dmsOf s st
  match d.state with
  | .stroking => stall st s
  | .retracting => stallHalt st .retractStall d.mask .step s
  | .probing => match d.probePhase, d.probeGroup with
    | .out, _ => probeStuckNow st s
    | .back, some g => stallHalt st .retractStall (d.probeStuck ||| groupBit g) .step s
    | _, _ => s
  | .homing => stallHalt st .homeStall 0 .homing s
  | _ => s

/-- An EJECT_FORCE reading: the peak, from the start of the chain to DONE, then the limit (R151). -/
def forceReading (st : Station) (v : Int) (s : Block) : Block :=
  let s1 := raiseForce st v s
  match forceLimit s1 st with
  | some l => if (l : Int) < v then forceExceeded st s1 else s1
  | none => s1

/-- A stale event of EJECT_POS or EJECT_FORCE (R153). -/
def ejectorStale (st : Station) (s : Block) : Block :=
  let d := dmsOf s st
  if isMoving d then match d.state with
    | .probing => halt st .sensor 0 .probe s
    | .homing => halt st .sensor 0 .homing s
    | _ => halt st .sensor 0 .step s
  else s

/-- A HOLD reading or stale event after which the level read is 0 resumes a PAUSED sequencer (R160). -/
def holdEvent (st : Station) (s : Block) : Block :=
  let d := dmsOf s st
  if decide (d.state = .paused) && !holdOn s st then
    takeAction st d.resume (modDms st (fun d => { d with resume := .none }) s)
  else s

/-! ### Timers (R152, R154, R158) -/

/-- The step timer expires (R152). -/
def stepExpiry (st : Station) (s : Block) : Block :=
  let d := dmsOf s st
  match d.state with
  | .stroking | .retracting => halt st .timeout 0 .step s
  | .probing => match d.probePhase with
    | .out => probeStuckNow st s
    | .back => halt st .timeout 0 .probe s
    | _ => s
  | .homing => halt st .timeout 0 .homing s
  | _ => s

/-- The dwell or the probe rest ends (R154, R158). -/
def dwellExpiry (st : Station) (s : Block) : Block :=
  let d := dmsOf s st
  match d.state with
  | .dwell => dwellDone st s
  | .probing => if d.probePhase = .rest then restDone st s else s
  | _ => s

/-! ### Abort, release, reset (R162 to R164) -/

/-- An abort handed to the sequencer: with the flag already set it changes nothing; PAUSED it halts at once, which
leaves the flag clear; else it sets the flag (R162, log 22). -/
def abortDms (st : Station) (s : Block) : Block :=
  let d := dmsOf s st
  if d.abortPending then s
  else if d.state = .paused then halt st .abort 0 d.resume s
  else modDms st (fun d => { d with abortPending := true }) s

/-- The station leaves HELD for DEMOULDING and STATION_HELD stops being present (R81). -/
def leaveHeld (st : Station) (s : Block) : Block :=
  setLevel (.stationHeld st) false (setState st .demoulding s)

/-- The resume of a released sequencer (R163). -/
def releaseDms (st : Station) (s : Block) : Block :=
  let d := dmsOf s st
  let s1 := modDms st (fun d => { d with stuck := 0, cause := .none, resume := .none }) s
  if causeUnites d.cause then
    let mask := d.mask &&& ~~~d.stuck
    let s2 := modDms st (fun d => { d with mask := mask, retries := 0 }) s1
    if mask = 0 then stepBoundary st (modDemould st (fun p => { p with skipped := bump8 p.skipped }) s2)
    else issueStep st s2
  else takeAction st d.resume s1

/-- DEMOULD_RESET of the sequencer (R164). -/
def resetSequencer (st : Station) (s : Block) : Block :=
  enterHoming st
    (modDms st (fun d =>
      { d with stuck := 0, cause := .none, resume := .none, probeGroup := none, probePhase := .none
               scanFollows := false })
      (setFlag st .demouldIncomplete s))

end Sys2Proof.Machine
end

