-- ==== Sys2Proof/Machine/Zone.lean ====
section
/-! DEFINITION. The Zone Regulator (chapter 5): targets and ramp, sensor selection, the regulation computation, blind
hold, fault and recovery, the in-band judgement, platen summaries, and how zones follow their station. -/

namespace Sys2Proof.Machine

open Sys2Proof

/-! ### Targets and ramp (R90, R91) -/

/-- `x` held within `lo..hi`. -/
def clampInt (lo hi x : Int) : Int := max lo (min x hi)

/-- The setpoint of a recipe for a platen (R48). -/
def setpointOf (r : Recipe) : Platen → Nat
  | .upper => r.upper
  | .lower => r.lower

/-- The target T of a zone, from its station's state (R90). A station out of STANDBY always has a recipe to work by. -/
def zoneTarget (s : Block) (z : Fin 32) : Int :=
  let e := entryOf s z
  match stateOf s e.station, recipeFor s e.station with
  | .off, _ | .standby, _ | _, none => (e.standbySetpoint : Int)
  | _, some r => clampInt 0 4000 ((setpointOf r e.platen : Int) + e.offset)

/-- The in-band width of a zone's station (R105). -/
def bandWidth (s : Block) (z : Fin 32) : Nat := match recipeFor s (entryOf s z).station with
  | some r => r.width
  | none => 0

/-- One ramp step of WSP toward T (R91). -/
def rampTo (wsp t : Int) (step : Nat) : Int := if wsp < t then min t (wsp + step) else max t (wsp - step)

/-! ### Sensors (R92 to R94) -/

/-- The other slot. -/
def otherSlot : Slot → Slot
  | .zero => .one
  | .one => .zero

/-- A zone's slot is FRESH. -/
def slotFresh (s : Block) (z : Fin 32) (sl : Slot) : Bool := isFresh s (.zoneSensor z sl)

/-- The held value of a zone's slot. -/
def slotHeld (s : Block) (z : Fin 32) (sl : Slot) : Int := heldOf s (.zoneSensor z sl)

/-- PV is usable: the selected slot is FRESH (R94). -/
def pvUsable (s : Block) (z : Fin 32) : Bool := slotFresh s z (zoneOf s z).slot

/-- PV: the held value of the selected slot (R94). -/
def pvOf (s : Block) (z : Fin 32) : Int := slotHeld s z (zoneOf s z).slot

/-- The fault count of a slot. -/
def faultsOf (c : Zone) : Slot → Nat
  | .zero => c.faults0
  | .one => c.faults1

/-- A sensor-fault or stale event of a slot is counted, but not by a DISABLED zone (R92). -/
def countFault (z : Fin 32) (sl : Slot) (s : Block) : Block :=
  modZone z (fun c =>
    if c.state = .disabled then c
    else match sl with
      | .zero => { c with faults0 := min (c.faults0 + 1) 255 }
      | .one => { c with faults1 := min (c.faults1 + 1) 255 }) s

/-- The window restarts with the scan window and switch margin of the Zone Table (R93). -/
def restartWindow (e : ZoneEntry) (c : Zone) : Zone :=
  { c with faults0 := 0, faults1 := 0, windowPos := 0, windowLen := e.scanWindow, windowMargin := e.switchMargin }

/-- A switch of the selected slot, which sets SENSOR_SWITCHED while the station is CURING (R93, R94). -/
def switchSlot (z : Fin 32) (s : Block) : Block :=
  let e := entryOf s z
  let s1 := modZone z (fun c => restartWindow e { c with slot := otherSlot c.slot }) s
  if stateOf s e.station = .curing then setFlag e.station .sensorSwitched s1 else s1

/-- The window-end comparison (R93). -/
def windowSwitch (s : Block) (z : Fin 32) : Bool :=
  let c := zoneOf s z
  decide (faultsOf c (otherSlot c.slot) + c.windowMargin < faultsOf c c.slot) && slotFresh s z (otherSlot c.slot)

/-- Sensor selection at a regulation event (R92, R93). -/
def selectSensor (z : Fin 32) (s : Block) : Block :=
  let s1 := modZone z (fun c => { c with windowPos := c.windowPos + 1 }) s
  let c := zoneOf s1 z
  if !slotFresh s1 z c.slot && slotFresh s1 z (otherSlot c.slot) then switchSlot z s1
  else if c.windowLen ≤ c.windowPos then
    if windowSwitch s1 z then switchSlot z s1 else modZone z (restartWindow (entryOf s1 z)) s1
  else s1

/-! ### Reports to the station (R103, R106) -/

/-- The zone's in-band status after a judgement; a change is reported to its station (R106). -/
def setBand (z : Fin 32) (band : Bool) (s : Block) : Block :=
  if (zoneOf s z).inBand = band then s
  else zoneReport (entryOf s z).station z band (modZone z (fun c => { c with inBand := band }) s)

/-- Judge HEAT_FAULT of a station: present while one of its enabled zones is in FAULT (R103). -/
def judgeHeatFault (st : Station) (s : Block) : Block := setLevel (.heatFault st) (anyFault s st) s

/-- A zone's allowance set to 0 (R115). -/
def dropAllowance (z : Fin 32) (s : Block) : Block :=
  { s with pwa := { s.pwa with allowance := vset s.pwa.allowance z 0 } }

/-- The zone's allowance (R97). -/
def allowanceOf (s : Block) (z : Fin 32) : Nat := vget s.pwa.allowance z

/-- The zone's context at an entry into FAULT (R102). -/
def faultedZone (cause : ZoneCause) (c : Zone) : Zone :=
  { c with state := .fault, cause := cause, r := 0, g := 0, iq := 0, blindHold := none }

/-- Entry into FAULT (R102, R115, R77). -/
def enterFault (z : Fin 32) (cause : ZoneCause) (s : Block) : Block :=
  let st := (entryOf s z).station
  let s1 := setBand z false (postDuty z (dropAllowance z (modZone z (faultedZone cause) s)))
  let s2 := judgeHeatFault st s1
  if stateOf s2 st = .curing then setFlag st .heatFault s2 else s2

/-! ### The regulation computation (R95, R96) -/

/-- The rounding of R95. -/
def round256 (x : Int) : Int := roundDiv x 256

/-- The error (R95, step 1). -/
def errorOf (tw pv : Int) : Int := clampInt (-2000) 2000 (tw - pv)

/-- The integral after an event with error `e` (R95, steps 2 to 4). -/
def nextIntegral (z : ZoneEntry) (iq e : Int) : Int :=
  let cand := iq + (z.ki : Int) * e
  let v := round256 ((z.kp : Int) * e + cand) + z.ff
  if ((z.dutyCeiling : Int) < v ∧ 0 < e) ∨ (v < 0 ∧ e < 0) then iq else clampInt 0 256000 cand

/-- The requested duty from the decided integral, within the slew of the former one (R96). -/
def nextDuty (z : ZoneEntry) (iq e : Int) (prev : Nat) : Nat :=
  let u := clampInt 0 z.dutyCeiling (round256 ((z.kp : Int) * e + iq) + z.ff)
  (max ((prev : Int) - z.slew) (min u ((prev : Int) + z.slew))).toNat

/-! ### Regulation events by state (R88, R97 to R101, R105) -/

/-- The in-band judgement of R105. -/
def judgedIn (s : Block) (z : Fin 32) (t pv : Int) : Bool :=
  settleMayRun (stateOf s (entryOf s z).station) && decide ((zoneOf s z).wsp = t) &&
    decide ((t - pv).natAbs ≤ bandWidth s z)

/-- The zone's context after the computation with target `t` and value `pv` (R91, R95 to R97). -/
def computedZone (e : ZoneEntry) (t pv : Int) (allowance : Nat) (c : Zone) : Zone :=
  let tw := rampTo c.wsp t e.rampStep
  let iq := nextIntegral e c.iq (errorOf tw pv)
  let r := nextDuty e iq (errorOf tw pv) c.r
  { c with wsp := tw, iq := iq, r := r, g := min r allowance, lastTarget := t }

/-- A REGULATING event with a usable PV (R88): overtemperature, or the computation, the post and the judgement. -/
def regulateUsable (z : Fin 32) (s : Block) : Block :=
  let e := entryOf s z
  let pv := pvOf s z
  let t := zoneTarget s z
  if (e.overtempLimit : Int) < pv then enterFault z .overtemp s
  else
    let s1 := postDuty z (modZone z (computedZone e t pv (allowanceOf s z)) s)
    setBand z (judgedIn s1 z t pv) s1

/-- The zone's context after a BLIND event with target `t` (R100). -/
def blindZone (e : ZoneEntry) (t : Int) (allowance : Nat) (c : Zone) : Zone :=
  let r := min c.blindBase (min e.blindCap e.dutyCeiling)
  { c with wsp := rampTo c.wsp t e.rampStep, r := r, g := min r allowance, lastTarget := t }

/-- The blind duty (R100). -/
def blindDuty (z : Fin 32) (s : Block) : Block :=
  setBand z false
    (postDuty z (modZone z (blindZone (entryOf s z) (zoneTarget s z) (allowanceOf s z)) s))

/-- Entry into BLIND (R99). -/
def enterBlind (z : Fin 32) (s : Block) : Block :=
  let e := entryOf s z
  blindDuty z (modZone z (fun c =>
    { c with state := .blind, blindBase := c.r, blindHold := startTimer (e.blindHold * 1000) }) s)

/-- The action of a regulation event by the zone's state, after sensor selection (R88). DESIGN CHOICE (log 37): the last
judged target of R105 is recorded where R90 gives a T to judge by, in REGULATING and BLIND; an event in OFF or FAULT, and
one that enters FAULT, keeps the former one. -/
def regulateByState (z : Fin 32) (s : Block) : Block := match (zoneOf s z).state with
  | .disabled => s
  | .off | .fault => setBand z false (postDuty z (modZone z (fun c => { c with r := 0, g := 0 }) s))
  | .regulating => if pvUsable s z then regulateUsable z s else enterBlind z s
  | .blind =>
    if pvUsable s z then
      regulateUsable z (modZone z (fun c => { c with state := .regulating, blindHold := none }) s)
    else blindDuty z s

/-! ### Platen summaries (R107) -/

/-- A platen's marker. -/
def markerOf (m : Markers) : Platen → Bool
  | .upper => m.upper
  | .lower => m.lower

/-- A platen's marker started. -/
def startMarker (p : Platen) (m : Markers) : Markers := match p with
  | .upper => { m with upper := true }
  | .lower => { m with lower := true }

/-- The platen minimum and maximum with one PV taken in (R107). -/
def withPv (p : Platen) (started : Bool) (pv : Int) (c : CurePart) : CurePart := match p with
  | .upper =>
    { c with upperMin := if started then min c.upperMin pv else pv
             upperMax := if started then max c.upperMax pv else pv }
  | .lower =>
    { c with lowerMin := if started then min c.lowerMin pv else pv
             lowerMax := if started then max c.lowerMax pv else pv }

/-- The summary update at the end of a regulation event (R107). -/
def summarise (z : Fin 32) (s : Block) : Block :=
  let e := entryOf s z
  if decide (stateOf s e.station = .curing) && e.enabled && pvUsable s z then
    let started := markerOf (s.zrg.markers.get e.station) e.platen
    let s1 := modOpenRecord e.station (fun r => { r with cure := r.cure.map (withPv e.platen started (pvOf s z)) }) s
    { s1 with zrg := { s1.zrg with
        markers := s1.zrg.markers.set e.station (startMarker e.platen (s1.zrg.markers.get e.station)) } }
  else s

/-- The regulation period in ms (R45, R88). -/
def periodOf (e : ZoneEntry) : Nat := (e.codeN + 1) * 2 ^ e.codeM * 10

/-- A regulation event (R88): the timer restarts, the sensor is selected, the state acts, the summary is updated. -/
def regulation (z : Fin 32) (s : Block) : Block :=
  let e := entryOf s z
  summarise z (regulateByState z (selectSensor z (modZone z (fun c => { c with timer := startTimer (periodOf e) }) s)))

/-! ### Zones and their station (R87, R89) -/

/-- WSP at the transition from OFF to REGULATING (R89). -/
def initialWsp (s : Block) (z : Fin 32) : Int :=
  let sl := (zoneOf s z).slot
  if slotFresh s z sl then slotHeld s z sl
  else if slotFresh s z (otherSlot sl) then slotHeld s z (otherSlot sl) else 0

/-- A zone leaves OFF with its station (R89). -/
def leaveOff (z : Fin 32) (s : Block) : Block :=
  if (zoneOf s z).state = .off then
    let w := initialWsp s z
    modZone z (fun c => { c with state := .regulating, iq := 0, r := 0, wsp := w, blindHold := none }) s
  else s

/-- The zone's context at an entry into OFF (R89). -/
def offZone (c : Zone) : Zone :=
  { c with state := .off, cause := .none, r := 0, g := 0, iq := 0, blindHold := none }

/-- A zone in REGULATING, BLIND or FAULT enters OFF with its station (R89, R103, R115). -/
def enterOff (z : Fin 32) (s : Block) : Block := match (zoneOf s z).state with
  | .regulating | .blind | .fault =>
    judgeHeatFault (entryOf s z).station
      (setBand z false (postDuty z (dropAllowance z (modZone z offZone s))))
  | _ => s

/-- Every enabled zone of a station, in ascending order, through `f` (log 8). -/
def eachZone (st : Station) (f : Fin 32 → Block → Block) (s : Block) : Block :=
  (zonesOf s st).foldl (fun s z => f z s) s

/-- A zone enabled by a write, or by an image load: it becomes OFF at its reset values and its timer starts (R87). -/
def enableZone (z : Fin 32) (s : Block) : Block :=
  let e := entryOf s z
  modStc e.station (fun c => { c with inBand := vset c.inBand z false })
    (dropAllowance z (modZone z (fun _ => { resetZone .off e with timer := startTimer (periodOf e) }) s))

/-- A zone disabled by a write (R87). -/
def disableZone (z : Fin 32) (s : Block) : Block :=
  let e := entryOf s z
  modStc e.station (fun c => { c with inBand := vset c.inBand z false })
    (dropAllowance z (modZone z (fun _ => resetZone .disabled e) s))

/-- A station event that moves targets: every in-band zone of the station whose T differs from its last judged target
becomes out of band at once (R106). -/
def moveTargets (st : Station) (s : Block) : Block :=
  eachZone st (fun z s =>
    if (zoneOf s z).inBand && decide (zoneTarget s z ≠ (zoneOf s z).lastTarget) then setBand z false s else s) s

/-! ### Stations between OFF, STANDBY and PREHEAT (R62 to R64, R89) -/

/-- A station's zones leave OFF when the station does (R89). -/
def followFrom (old : StationState) (st : Station) (s : Block) : Block :=
  if old = .off then eachZone st leaveOff s else s

/-- An accepted WAKE that is not deferred: PREHEAT, with heat-ready clear and the settle timer stopped (R62, R66). -/
def enterHeat (st : Station) (s : Block) : Block :=
  let old := stateOf s st
  startSettle st (followFrom old st
    (modStc st (fun c => { c with state := .preheat, heatReady := false, settle := none }) s))

/-- The further effects of an accepted STANDBY or OFF (R64), with NO_CYCLE ended (R69). -/
def enterCold (st : Station) (x : StationState) (s : Block) : Block :=
  setNoCycle st .none
    (modStc st (fun c => { c with state := x, deferredWake := false, heatReady := false, settle := none }) s)

/-- An accepted STANDBY (R64). -/
def goStandby (st : Station) (s : Block) : Block := followFrom (stateOf s st) st (enterCold st .standby s)

/-- An accepted OFF (R64, R89). -/
def goOff (st : Station) (s : Block) : Block := eachZone st enterOff (enterCold st .off s)

/-! ### ZONE_RECOVER (R104) -/

/-- ZONE_RECOVER as the Zone Regulator decides it (R104). -/
def recoverZone (z : Fin 32) (s : Block) : Status × Block :=
  let c := zoneOf s z
  if c.state ≠ .fault then (.notAllowed, s)
  else if !slotFresh s z .zero && !slotFresh s z .one then (.notAllowed, s)
  else
    let s1 := if slotFresh s z c.slot then s else switchSlot z s
    let pv := pvOf s1 z
    if ((entryOf s z).overtempLimit : Int) - 50 < pv then (.notAllowed, s1)
    else
      (.ok, judgeHeatFault (entryOf s z).station
        (modZone z (fun c => { c with state := .regulating, cause := .none, iq := 0, r := 0, wsp := pv }) s1))

end Sys2Proof.Machine
end

