-- ==== Sys2Proof/Machine/Budget.lean ====
section
/-! DEFINITION. The Power Allocator (chapter 6): classes, demand, factors, allowances, clipping, pressure and the
deferred wakes a clearing lets go. -/

namespace Sys2Proof.Machine

open Sys2Proof

/-- The budget classes in order of service (R111). -/
inductive BudgetClass where
  | curing | heating | standby
  deriving DecidableEq, Repr

/-- The class of a station state; a station in OFF has no zone with demand (R111). -/
def classOf : StationState → Option BudgetClass
  | .curing => some .curing
  | .preheat | .ready | .charging | .pressLoad | .opening | .demoulding | .held => some .heating
  | .standby => some .standby
  | .off => none

/-- The class of a zone (R111). -/
def zoneClass (s : Block) (z : Fin 32) : Option BudgetClass := classOf (stateOf s (entryOf s z).station)

/-- The demand of a zone (R111). -/
def demandOf (s : Block) (z : Fin 32) : Nat := match (zoneOf s z).state with
  | .regulating | .blind => min (entryOf s z).dutyCeiling ((zoneOf s z).r + s.tab.line.headroom)
  | _ => 0

/-- The load of a class (R112). -/
def loadOf (s : Block) (c : BudgetClass) : Nat :=
  ((allZones.filter fun z => decide (zoneClass s z = some c)).map fun z =>
    demandOf s z * (entryOf s z).ratedPower).sum

/-- The capacity C (R112). -/
def capacityOf (s : Block) : Nat := s.tab.line.cap * 1000

/-- A class's factor out of the remaining capacity (R112). DEDUCED (log 38): a class of load 0 has factor 1024 with no
capacity left too, also where its zones have demand and a rated power of 0; R121 says of a cap of 0 that each zone with
demand has allowance 0. -/
def factorOf (load remaining : Nat) : Nat := if load ≤ remaining then 1024 else remaining * 1024 / load

/-- The capacity a class leaves to the next (R112). -/
def remainingAfter (load remaining : Nat) : Nat := if load ≤ remaining then remaining - load else 0

/-- The class factors (R112). -/
def factorsOf (l : ByClass) (cap : Nat) : ByClass :=
  let r1 := remainingAfter l.c0 cap
  { c0 := factorOf l.c0 cap, c1 := factorOf l.c1 r1, c2 := factorOf l.c2 (remainingAfter l.c1 r1) }

/-- The value of a class. -/
def ByClass.get (b : ByClass) : BudgetClass → Nat
  | .curing => b.c0
  | .heating => b.c1
  | .standby => b.c2

/-- The loads of the classes. -/
def loadsOf (s : Block) : ByClass :=
  { c0 := loadOf s .curing, c1 := loadOf s .heating, c2 := loadOf s .standby }

/-- The allowance of a zone (R113); a zone without a class has none. -/
def allowanceFor (s : Block) (f : ByClass) (z : Fin 32) : Nat := match zoneClass s z with
  | some c => demandOf s z * f.get c / 1024
  | none => 0

/-- The classification, factors and allowances of a budget event (R111 to R113). -/
def allocate (s : Block) : Block :=
  let l := loadsOf s
  let f := factorsOf l (capacityOf s)
  { s with pwa :=
      { s.pwa with
        allowance := Vector.ofFn (allowanceFor s f), factor := f, load := l, capacity := capacityOf s
        allowanceLoad := (allZones.map fun z => allowanceFor s f z * (entryOf s z).ratedPower).sum } }

/-- Clip a zone's grant to its allowance and post it (R114, R116). -/
def clipZone (z : Fin 32) (s : Block) : Block :=
  if allowanceOf s z < (zoneOf s z).g then
    postDuty z (modZone z (fun c => { c with g := allowanceOf s z }) s)
  else s

/-- Clip every grant, in ascending zone order (R114, R116). -/
def clipGrants (s : Block) : Block := allZones.foldl (fun s z => clipZone z s) s

/-- The sum of the class loads of the latest budget event. -/
def loadSum (s : Block) : Nat := s.pwa.load.c0 + s.pwa.load.c1 + s.pwa.load.c2

/-- The pressure state after a budget event (R117). -/
def pressureAfter (s : Block) : Bool :=
  if s.pwa.pressure then decide (s.tab.line.cap * 10 * s.tab.line.restore < loadSum s)
  else decide (s.pwa.capacity < loadSum s)

/-- A station acts on the clearing of pressure (R63). DEDUCED (log 41): the zones of a station woken from STANDBY keep the
allowances and grants of this budget event (R113, R115); only those that leave OFF hold an allowance of 0 (R118). -/
def takeDeferred (st : Station) (s : Block) : Block :=
  let c := stcOf s st
  if c.deferredWake then
    let s1 := modStc st (fun c => { c with deferredWake := false }) s
    if (c.state = .off ∨ c.state = .standby) ∧ c.bound.isSome ∧ zonesOf s st ≠ [] then enterHeat st s1 else s1
  else s

/-- The pressure judgement, with the clearing handed to both stations (R117, R118). -/
def judgePressure (s : Block) : Block :=
  let p := pressureAfter s
  let s1 := setLevel .budgetPressure p { s with pwa := { s.pwa with pressure := p } }
  if s.pwa.pressure && !p then takeDeferred .b (takeDeferred .a s1) else s1

/-- A budget event (R110). -/
def budgetEvent (s : Block) : Block := judgePressure (clipGrants (allocate s))

/-- The budget timer starts with the period of Line Settings (R110). -/
def startBudget (s : Block) : Block := { s with pwa := { s.pwa with timer := startTimer s.tab.line.period } }

end Sys2Proof.Machine
end

