-- ==== Sys2Proof/Machine/Sample.lean ====
section
/-! DEFINITION. What closes every event (the PERMIT posts of R84 and the target moves of R106), and the Sample
Classifier (chapter 2): judging a reading, staleness, and delivery to the owner of the target. -/

namespace Sys2Proof.Machine

open Sys2Proof

/-! ### The close of an event (R84, R106) -/

/-- What a station's PERMIT frame carries: the permit set and the record number (R84). -/
def permitOf (s : Block) (st : Station) : Bool × Bool × Nat :=
  ((stcOf s st).closeOk, (stcOf s st).openOk, permitRecord s st)

/-- A PERMIT is posted when the event changed the station's permit set or record number (R84, log 6). -/
def postIfChanged (before : Block) (st : Station) (s : Block) : Block :=
  if permitOf s st = permitOf before st then s else postPermit st s

/-- The posts of both stations. DESIGN CHOICE (log 35): where one event calls for both, A's PERMIT is posted before B's,
whichever station the event changed first; R12 and R84 give no order. -/
def postPermits (before : Block) (s : Block) : Block := postIfChanged before .b (postIfChanged before .a s)

/-- The targets of a station's zones move when the event changed its state or its cycle (R106). -/
def moveIfChanged (before : Block) (st : Station) (s : Block) : Block :=
  if stateOf s st = stateOf before st ∧ permitRecord s st = permitRecord before st then s else moveTargets st s

/-- The moves of both stations. -/
def moveAll (before : Block) (s : Block) : Block := moveIfChanged before .b (moveIfChanged before .a s)

/-- One event: the effect, the PERMIT posts it calls for, then the reports of the zones whose target it moved, with
their own posts (R84, R106). -/
def event (f : Block → Block) (s : Block) : Block :=
  let s1 := postPermits s (f s)
  postPermits s1 (moveAll s s1)

/-! ### Classification of a reading (R27, R33 to R36, R42) -/

/-- A binary target (R34). -/
def isBinary : Target → Bool
  | .scaleDone => true
  | .stationSignal _ sig => match sig with
    | .closed | .opened | .hold => true
    | .tonnage | .ejectPos | .ejectForce => false
  | _ => false

/-- The value judged: a level for a binary target (R34). -/
def reduceValue (t : Target) (v : Int) : Int := if isBinary t then (if v = 0 then 0 else 1) else v

/-- The accepted range of a target (R27), for values already reduced. -/
def inRange (t : Target) (v : Int) : Bool := match t with
  | .zoneSensor _ _ => decide (-500 ≤ v) && decide (v ≤ 4500)
  | .scaleRaw => decide (-8388608 ≤ v) && decide (v ≤ 8388607)
  | .scaleDone => true
  | .stationSignal _ sig => match sig with
    | .closed | .opened | .hold => true
    | .tonnage => decide (0 ≤ v) && decide (v ≤ 60000)
    | .ejectPos => decide (0 ≤ v) && decide (v ≤ 30000)
    | .ejectForce => decide (0 ≤ v) && decide (v ≤ 20000)

/-- What the checks of R33 to R37 make of a reading. -/
inductive Judgement where
  | faulted | heldBack | accepted
  deriving DecidableEq, Repr

/-- The reading departs from the held value beyond the jump limit of a FRESH zone sensor (R36). -/
def jumps (c : MapConfig) (e : MapEntry) (v : Int) : Bool :=
  isZoneSensor c.target && decide (e.freshness = .fresh) && decide (c.jumpLimit < (v - e.held).natAbs)

/-- The checks of R33 to R37, in order. -/
def judgeReading (c : MapConfig) (e : MapEntry) (quality : Nat) (v : Int) : Judgement :=
  if quality ≠ 0 then .faulted
  else if !inRange c.target (reduceValue c.target v) then .faulted
  else if jumps c e v && decide (e.jumps < 2) then .heldBack
  else .accepted

/-- The live state after a faulted reading (R33, R35). -/
def faultedEntry (quality : Nat) (e : MapEntry) : MapEntry := { e with quality := quality, jumps := 0 }

/-- The live state after a held-back reading (R36). -/
def heldBackEntry (e : MapEntry) : MapEntry := { e with quality := 0, jumps := e.jumps + 1, age := 0 }

/-- The live state after an accepted reading (R38). -/
def acceptedEntry (v : Int) (e : MapEntry) : MapEntry :=
  { e with held := v, quality := 0, jumps := 0, freshness := .fresh, age := 0 }

/-- The live state when the age reaches the freshness limit (R39). -/
def staleEntry (limit : Nat) (e : MapEntry) : MapEntry :=
  { e with freshness := .stale, jumps := 0, age := max e.age limit }

/-- What a reading event of a binary target reports (R42). -/
inductive Edge where
  | none | rising | falling
  deriving DecidableEq, Repr

/-- The edge of an accepted reading `v` of an entry as it stood (R42). -/
def edgeOf (t : Target) (e : MapEntry) (v : Int) : Edge :=
  if !isBinary t || decide (e.freshness = .never) || decide (e.held = v) then .none
  else if v = 1 then .rising else .falling

/-! ### Delivery (R41) -/

/-- A station takes an OPENED rising edge: in OPENING it enters DEMOULDING; in CURING it is an early open (R78, R79). -/
def openedRising (st : Station) (s : Block) : Block := match stateOf s st with
  | .opening => startChain st (modStc st (fun c => { c with state := .demoulding, openOk := false }) s)
  | .curing => startChain st (setState st .demoulding (exitCuring st (setFlag st .earlyOpen s)))
  | _ => s

/-- A station takes a CLOSED reading (R72, R73, R75). -/
def closedReading (st : Station) (edge : Edge) (s : Block) : Block :=
  judgeGate st (cureTest st (if edge = .rising then closedRising st s else s))

/-- A station takes a TONNAGE reading (R72, R75, R77). -/
def tonnageReading (st : Station) (v : Int) (s : Block) : Block :=
  judgeGate st (cureTest st (if stateOf s st = .curing then raisePeak st v s else s))

/-- A reading event (R41). -/
def deliverReading (t : Target) (v : Int) (edge : Edge) (s : Block) : Block := match t with
  | .zoneSensor _ _ => s
  | .scaleRaw => scaleReading v s
  | .scaleDone => if edge = .rising then scaleDone s else s
  | .stationSignal st sig => match sig with
    | .closed => closedReading st edge s
    | .opened => if edge = .rising then openedRising st s else s
    | .tonnage => tonnageReading st v s
    | .hold => holdEvent st s
    | .ejectPos => posReading st v s
    | .ejectForce => forceReading st v s

/-- A sensor-fault event (R41): counted by a zone slot (R92), an event of the cure gate for CLOSED and TONNAGE (R75),
nothing for the others (R125, R139, R150, R153). -/
def deliverFault (t : Target) (s : Block) : Block := match t with
  | .zoneSensor z sl => countFault z sl s
  | .stationSignal st sig => match sig with
    | .closed | .tonnage => judgeGate st s
    | _ => s
  | _ => s

/-- A stale event, with either cause (R41). -/
def deliverStale (t : Target) (s : Block) : Block := match t with
  | .zoneSensor z sl => countFault z sl s
  | .scaleRaw => clearWindow s
  | .scaleDone => s
  | .stationSignal st sig => match sig with
    | .closed | .tonnage => judgeGate st s
    | .opened => s
    | .hold => holdEvent st s
    | .ejectPos | .ejectForce => ejectorStale st s

/-! ### The map (R32, R39, R40) -/

/-- Change a map entry. -/
def modEntry (i : Fin 96) (f : MapEntry → MapEntry) (s : Block) : Block :=
  { s with tab := { s.tab with map := vset s.tab.map i (f (vget s.tab.map i)) } }

/-- An entry in use that is STALE (R40). -/
def isStaleEntry (e : MapEntry) : Bool := e.config.isSome && decide (e.freshness = .stale)

/-- Judge SENSOR_STALE (R40). -/
def judgeStale (s : Block) : Block := setLevel .sensorStale (s.tab.map.toList.any isStaleEntry) s

/-- The index of the map entry in use with this key, if any (R32). -/
def entryWithKey (s : Block) (node channel : Nat) : Option (Fin 96) :=
  (List.finRange 96).find? fun i => match (vget s.tab.map i).config with
    | some c => decide (c.node = node) && decide (c.channel = channel)
    | none => false

/-- An accepted reading, whatever the jump count was (R37, R38). -/
def acceptReading (i : Fin 96) (c : MapConfig) (v : Int) (s : Block) : Block :=
  let edge := edgeOf c.target (vget s.tab.map i) v
  deliverReading c.target v edge (judgeStale (modEntry i (acceptedEntry v) s))

/-- One SAMPLE entry judged against its map entry (R33 to R38). -/
def takeEntry (i : Fin 96) (c : MapConfig) (e : SampleEntry) (s : Block) : Block :=
  match judgeReading c (vget s.tab.map i) e.quality e.value with
  | .faulted => deliverFault c.target (modEntry i (faultedEntry e.quality) s)
  | .heldBack => deliverFault c.target (modEntry i heldBackEntry s)
  | .accepted => acceptReading i c (reduceValue c.target e.value) s

/-- One SAMPLE entry of a frame from a source node (R32): one event, or ignored. -/
def sampleEntry (node : Nat) (e : SampleEntry) (s : Block) : Block := match entryWithKey s node e.channel with
  | some i => match (vget s.tab.map i).config with
    | some c => event (takeEntry i c e) s
    | none => s
  | none => s

/-- A SAMPLE frame offered to the Sample Classifier: its entries in turn, or nothing during an image load (R32). Each entry
is an event of its own, so that with OUT idle what the first posts goes on the line before the next is taken (R11, log 5). -/
def takeSample (f : Frame) (s : Block) : Block :=
  if s.mga.image = .loading then s
  else (sampleEntries f.payload).foldl (fun s e => arbitrate (sampleEntry f.src.toNat e s)) s

/-- A FRESH entry's age reaches its freshness limit (R39). -/
def entryGoesStale (i : Fin 96) (s : Block) : Block := match (vget s.tab.map i).config with
  | some c =>
    if (vget s.tab.map i).freshness = .fresh then
      deliverStale c.target (judgeStale (modEntry i (staleEntry c.freshLimit) s))
    else s
  | none => s

end Sys2Proof.Machine
end

