-- ==== Sys2Proof/Machine/Ring.lean ====
section
/-! DEFINITION. The Ring Port Unit (chapter 1): link transitions, the receive checks, forwarding, the end of a
transmission, and the frame of the EVENT gate (R189). -/

namespace Sys2Proof.Machine

open Sys2Proof

/-! ### Link states (R2 to R4) -/

/-- A port. -/
def portOf (s : Block) : Port → PortState
  | .inp => s.rpu.inPort
  | .out => s.rpu.outPort

/-- Replace a port. -/
def setPort (p : Port) (x : PortState) (s : Block) : Block := match p with
  | .inp => { s with rpu := { s.rpu with inPort := x } }
  | .out => { s with rpu := { s.rpu with outPort := x } }

/-- The condition of a port that is not UP (R2). -/
def portCond : Port → Cond
  | .inp => .portInDown
  | .out => .portOutDown

/-- What OUT loses when it leaves UP (R4). -/
def flushOut (s : Block) : Block :=
  { s with rpu := { s.rpu with forwardQ := [], controlQ := [], forwardCount := 0, onLine := none } }

/-- A signal becomes present at a port (R2): DOWN goes to TRAINING with a clean time of 0. In TRAINING and in UP the evidence
is noted, which at IN is the reception the part reports (R1, log 11). -/
def signalPresent (p : Port) (valid : Bool) (s : Block) : Block :=
  let r : Reception := if valid then .clean else .signal
  match (portOf s p).link with
  | .down => setPort p { link := .training, reception := r, cleanTime := 0 } s
  | .training =>
    setPort p { link := .training, reception := r, cleanTime := if valid then (portOf s p).cleanTime else 0 } s
  | .up => setPort p { portOf s p with reception := r } s

/-- The evidence after a disturbance (R1, R2). -/
def disturbedReception : Disturbance → Reception
  | .invalidSymbol => .signal
  | .noSignal => .noSignal
  | .nonIdleSymbol => .clean

/-- Only IN is disturbed by a valid symbol other than idle (R2). -/
def disturbs : Port → Disturbance → Bool
  | .out, .nonIdleSymbol => false
  | _, _ => true

/-- A disturbance in TRAINING restarts the clean-time count at zero (R2). In every link state the evidence is noted, which at
IN is the reception the part reports (R1); in DOWN and UP the count is 0 as it was (log 11). -/
def trainingDisturbed (p : Port) (d : Disturbance) (s : Block) : Block :=
  if disturbs p d then setPort p { portOf s p with reception := disturbedReception d, cleanTime := 0 } s else s

/-- Valid symbols only for 2 ms: TRAINING goes to UP (R2). DESIGN CHOICE (log 11): the command is itself the evidence that the
clean time has passed, so it acts whatever evidence is held, also where that is SIGNAL or NO_SIGNAL and the clean time does
not run. -/
def cleanTimeDone (p : Port) (s : Block) : Block :=
  if (portOf s p).link = .training then
    setLevel (portCond p) false (setPort p { link := .up, reception := .clean, cleanTime := 0 } s)
  else s

/-- No signal for 250 µs in TRAINING: DOWN, uncounted (R2). -/
def trainingLost (p : Port) (s : Block) : Block :=
  if (portOf s p).link = .training then setPort p { link := .down, reception := .noSignal, cleanTime := 0 } s else s

/-- 250 µs without a valid symbol in UP: DOWN, DISCONNECT counted; OUT loses what R4 lists (R2, R4). DESIGN CHOICE (log 11):
where a signal is still present the port stays DOWN with the evidence SIGNAL, until a LINK_SIGNAL_PRESENT command takes the
DOWN row's event; the clock never takes it. -/
def linkLost (p : Port) (signal : Bool) (s : Block) : Block :=
  if (portOf s p).link = .up then
    let r : Reception := if signal then .signal else .noSignal
    let s1 := setLevel (portCond p) true (countDisconnect (setPort p { link := .down, reception := r, cleanTime := 0 } s))
    match p with
    | .inp => s1
    | .out => flushOut s1
  else s

/-! ### Receive at IN (R7 to R9) -/

/-- IN is UP. -/
def inUp (s : Block) : Bool := decide (s.rpu.inPort.link = .up)

/-- The frame as it is forwarded: hops one less than it arrived (R9). -/
def hopped (f : Frame) : Frame := { f with hops := f.hops - 1 }

/-- A frame to be forwarded joins the forward queue, or is dropped with FWD_DROP (R4, R9). -/
def forward (f : Frame) (s : Block) : Block :=
  if outUp s && decide (s.rpu.forwardQ.length < Config.forwardCapacity) then
    { s with rpu := { s.rpu with forwardQ := s.rpu.forwardQ ++ [hopped f] } }
  else countFwdDrop s

/-- A consumed MGMT frame joins the request queue, or is dropped with REQ_DROP (R182). -/
def enqueueRequest (r : Request) (s : Block) : Block :=
  if s.mga.requests.length < Config.requestCapacity then
    { s with mga := { s.mga with requests := s.mga.requests ++ [r] } }
  else countReqDrop s

/-- A frame addressed to the part (R7, check 4). -/
def consume (f : Frame) (s : Block) : Block :=
  if f.kind = kindMgmt then enqueueRequest { src := f.src, payload := f.payload } s
  else if f.kind = kindSample then takeSample f s
  else countWrongKind s

/-- A frame that passes on (R7, checks 5 and 6). It is available in the forward queue before its entries are taken (R11,
log 5). -/
def passOn (f : Frame) (s : Block) : Block :=
  if f.dest = 255 ∧ f.kind = kindSample then takeSample f (arbitrate (forward f s)) else forward f s

/-- Checks 2 to 6 of R7. -/
def routeFrame (f : Frame) (s : Block) : Block :=
  if f.src.toNat = s.rpu.ownAddress then countReturned s
  else if f.hops = 0 then countHopExpired s
  else if f.dest.toNat = s.rpu.ownAddress then consume f s
  else passOn f s

/-- A frame that reached its end symbol was received as valid symbols, so that the part reports CLEAN (R1). What cut another
short, a valid symbol or an invalid one, is not told: it leaves the reception as it was (log 11). -/
def heard (f : RxFrame) (s : Block) : Block :=
  if f.cutShort then s else setPort .inp { s.rpu.inPort with reception := .clean } s

/-- A frame ends at IN (R1, R3, R7). -/
def receive (f : RxFrame) (s : Block) : Block :=
  if inUp s then
    let s1 := heard f s
    if wellFramed f && checkPasses f.bytes then routeFrame (frameOf f.bytes) (countRxFrames s1) else countCrcErr s1
  else s

/-! ### OUT (R10, R11) -/

/-- A transmission completes (R10, R11); the next decision follows at the end of the command, which is this one event. -/
def transmitDone (s : Block) : Block :=
  if s.rpu.onLine.isSome then countTxFrames { s with rpu := { s.rpu with onLine := none } } else s

/-! ### EVENT frames (R18, R25, R189) -/

/-- The numbers of a condition set, ascending. -/
def condNumbers (v : BitVec 23) : List Nat := (List.range 23).filter fun k => v.getLsbD k

/-- The payload of an EVENT frame (R25). -/
def eventPayload (s : Block) : List Byte :=
  let ks := condNumbers (reportable s)
  byteOf ks.length :: ks.map byteOf

/-- The waiting EVENT frame joins, when there is room; the gate closes (R18, R189). The master field is 255 when the
master is 255. -/
def joinEvent (s : Block) : Block :=
  if eventWaiting s && decide (s.rpu.infoQ.length < Config.infoCapacity) then
    let s1 := joinInfo { dest := byteOf s.tab.line.master, kind := kindEvent, payload := eventPayload s } s
    { s1 with cdu := { s1.cdu with gateOpen := false } }
  else s

/-- PART frames that wait join, while they may (R18, R177). -/
def joinPart (s : Block) : Block := if partMayJoin s then serveCollection s else s

end Sys2Proof.Machine
end

