-- ==== Sys2Proof/Machine/Tables.lean ====
section
/-! DEFINITION. Writing and reading table entries (chapter 3, R28 to R30, R186): the checks of each table, what an
accepted write does at once, and the loops over the entries of a request. -/

namespace Sys2Proof.Machine

open Sys2Proof

/-- A further event: the target moves of a station that the write or command calls for (R106). -/
def thenMove (st : Station) (s : Block) : Block := event (moveTargets st) s

/-! ### Zone Table (R45 to R47, R87, R98) -/

/-- Checks 2 and 3 of R46: enabled entries name at most 6 drive nodes, and no node and channel twice. -/
def zoneTableOk (t : Vector ZoneEntry 32) : Bool :=
  let en := (allZones.map (vget t)).filter (·.enabled)
  decide ((en.map (·.driveNode)).dedup.length ≤ Config.driveNodes) &&
    decide ((en.map fun e => (e.driveNode, e.driveChannel)).Nodup)

/-- Check 1 of R46: a change of enabled, station or platen needs the stations concerned in OFF. -/
def zoneChangeAllowed (s : Block) (o e : ZoneEntry) : Bool :=
  (decide (o.enabled = e.enabled) && decide (o.station = e.station) && decide (o.platen = e.platen)) ||
    (decide (stateOf s o.station = .off) && decide (stateOf s e.station = .off))

/-- A zone's duties lowered to a lower ceiling (R47, R98). DESIGN CHOICE (log 40): in BLIND the base is lowered at every
lowering of the ceiling that it exceeds, also where the new ceiling is not below the requested duty. -/
def ceiledZone (ceiling : Nat) (c : Zone) : Zone :=
  let r := min c.r ceiling
  { c with r := r, g := min c.g r, blindBase := if c.state = .blind then min c.blindBase ceiling else c.blindBase }

/-- A lowered duty ceiling acts at once; a changed grant is posted (R47, R98). -/
def lowerCeiling (z : Fin 32) (ceiling : Nat) (s : Block) : Block :=
  let s1 := modZone z (ceiledZone ceiling) s
  if (zoneOf s1 z).g = (zoneOf s z).g then s1 else postDuty z s1

/-- The effects of an accepted Zone Table write of `e` for `o` (R47, R87, R110), after the entry is stored. DESIGN CHOICE
(log 36): a lowered ceiling acts, and posts, before the budget event of a changed rated power; R47 gives no order. -/
def zoneWritten (z : Fin 32) (o e : ZoneEntry) (s : Block) : Block :=
  let s1 := if o.enabled = e.enabled then s else if e.enabled then enableZone z s else disableZone z s
  let s2 := if e.dutyCeiling < o.dutyCeiling then lowerCeiling z e.dutyCeiling s1 else s1
  if e.enabled && decide (o.ratedPower ≠ e.ratedPower) then budgetEvent s2 else s2

/-- Store a Zone Table entry. -/
def putZone (z : Fin 32) (e : ZoneEntry) (s : Block) : Block :=
  { s with tab := { s.tab with zones := vset s.tab.zones z e } }

/-- A Zone Table write (R43, R45, R46): ranges, then check 1, then checks 2 and 3 (log 16). -/
def writeZone (z : Fin 32) (bs : List Byte) (s : Block) : Status × Block := match zoneEntryOf bs with
  | none => (.badEntry, s)
  | some e =>
    if !zoneChangeAllowed s (entryOf s z) e then (.notAllowed, s)
    else if !zoneTableOk (vset s.tab.zones z e) then (.badEntry, s)
    else (.ok, event (fun s => zoneWritten z (entryOf s z) e (putZone z e s)) s)

/-! ### Recipe and Step Tables (R48 to R52) -/

/-- A station outside a cycle whose bound recipe is `i` (R106). -/
def boundOutside (s : Block) (st : Station) (i : Fin 16) : Bool :=
  decide ((stcOf s st).bound = some i) && !isCycleState (stateOf s st)

/-- The moves a Recipe Table write calls for (R106). -/
def moveBound (i : Fin 16) (st : Station) (s : Block) : Block := if boundOutside s st i then thenMove st s else s

/-- Store a Recipe Table entry. -/
def putRecipe (i : Fin 16) (r : Recipe) (s : Block) : Block :=
  { s with tab := { s.tab with recipes := vset s.tab.recipes i r } }

/-- A Recipe Table write (R43, R48, R49): the revision is the former one plus one; READY stations take the cycle-open
test (R68); targets move (R106). -/
def writeRecipe (i : Fin 16) (bs : List Byte) (s : Block) : Status × Block := match recipeOf bs with
  | none => (.badEntry, s)
  | some r =>
    let rev := ((vget s.tab.recipes i).revision + 1) % 256
    (.ok, moveBound i .b (moveBound i .a (event (fun s => testStations (putRecipe i { r with revision := rev } s)) s)))

/-- A Step Table write (R43, R50); READY stations take the cycle-open test (R68). -/
def writeStep (i : Fin 64) (bs : List Byte) (s : Block) : Status × Block := match stepEntryOf bs with
  | none => (.badEntry, s)
  | some e =>
    (.ok, event (fun s => testStations { s with tab := { s.tab with steps := vset s.tab.steps i e } }) s)

/-! ### Station Table (R53) -/

/-- A Station Table write (R43, R53). -/
def writeStation (st : Station) (bs : List Byte) (s : Block) : Status × Block := match stationEntryOf bs with
  | none => (.badEntry, s)
  | some e => (.ok, { s with tab := { s.tab with stations := s.tab.stations.set st e } })

/-! ### Line Settings (R54 to R56) -/

/-- The write changes Z, S or the window code (R56). -/
def calibrationChanged (o e : LineSettings) : Bool :=
  !(decide (o.zero = e.zero) && decide (o.span = e.span) && decide (o.windowCode = e.windowCode))

/-- Store the Line Settings; the own address takes effect for the next frame (R8, R55). -/
def putLine (e : LineSettings) (s : Block) : Block :=
  { s with tab := { s.tab with line := e }, rpu := { s.rpu with ownAddress := e.own } }

/-- What an accepted Line Settings write does at once (R55, R56, R129, R138), in the order of log 29. -/
def lineWritten (o : LineSettings) (s : Block) : Block :=
  let s1 := judgeHigh s
  let s2 := if calibrationChanged o s.tab.line then clearWindow s1 else s1
  budgetEvent (evalIfLoading (judgeOverload s2))

/-- A Line Settings write (R43, R54). -/
def writeLine (bs : List Byte) (s : Block) : Status × Block := match lineOf bs with
  | none => (.badEntry, s)
  | some e => (.ok, event (fun s => lineWritten s.tab.line (putLine e s)) s)

/-! ### Sample Map (R28 to R30) -/

/-- Another entry in use with the same key or the same target (R28). -/
def clashes (c : MapConfig) (d : Option MapConfig) : Bool := match d with
  | some d => (decide (d.node = c.node) && decide (d.channel = c.channel)) || decide (d.target = c.target)
  | none => false

/-- No other entry clashes (R28); an empty entry is compared with nothing. -/
def mapAllowed (m : Vector MapEntry 96) (i : Fin 96) (c : Option MapConfig) : Bool := match c with
  | some c => (List.finRange 96).all fun j => decide (j = i) || !clashes c (vget m j).config
  | none => true

/-- Store a Sample Map entry in NEVER; the owner of a FRESH entry's former target receives a stale event (R30). -/
def rewriteEntry (i : Fin 96) (c : Option MapConfig) (s : Block) : Block :=
  let o := vget s.tab.map i
  let s1 := judgeStale (modEntry i (fun _ => neverEntry c) s)
  match o.config with
  | some d => if o.freshness = .fresh then deliverStale d.target s1 else s1
  | none => s1

/-- A Sample Map write (R28 to R30). -/
def writeMap (i : Fin 96) (bs : List Byte) (s : Block) : Status × Block := match mapConfigOf bs with
  | none => (.badEntry, s)
  | some c => if mapAllowed s.tab.map i c then (.ok, event (rewriteEntry i c) s) else (.badEntry, s)

/-! ### Entries by table and index (R186) -/

/-- An index of a table as one of its `n` places. -/
def indexOf (n : Nat) (i : Int) : Option (Fin n) :=
  if h : i.toNat < n then (if 0 ≤ i then some ⟨i.toNat, h⟩ else none) else none

/-- Write one entry; BAD_INDEX for an index outside the table (R186). -/
def writeEntry (t : TableId) (i : Int) (bs : List Byte) (s : Block) : Status × Block := match t with
  | .zone => match indexOf 32 i with
    | some z => writeZone z bs s
    | none => (.badIndex, s)
  | .recipe => match indexOf 16 i with
    | some k => writeRecipe k bs s
    | none => (.badIndex, s)
  | .step => match indexOf 64 i with
    | some k => writeStep k bs s
    | none => (.badIndex, s)
  | .station => match stationOf i.toNat, decide (0 ≤ i) with
    | some st, true => writeStation st bs s
    | _, _ => (.badIndex, s)
  | .line => if i = 0 then writeLine bs s else (.badIndex, s)
  | .map => match indexOf 96 i with
    | some k => writeMap k bs s
    | none => (.badIndex, s)

/-- Write `n` entries from index `i` by `step`, stopping at the first that is not OK; `w` entries have been written
(R186). Each entry's write is an event of its own (R11, log 5). -/
def writeEntries (t : TableId) (step : Int) : Nat → Int → List Byte → Nat → Block → Status × Nat × Block
  | 0, _, _, w, s => (.ok, w, s)
  | n + 1, i, bs, w, s =>
    let x := writeEntry t i (bs.take (writtenSize t)) s
    if x.1 = .ok then writeEntries t step n (i + step) (bs.drop (writtenSize t)) (w + 1) (arbitrate x.2)
    else (x.1, w, x.2)

/-- The bytes TABLE_READ returns for one entry; `none` for an index outside the table (R186). -/
def readEntry (s : Block) (t : TableId) (i : Int) : Option (List Byte) := match t with
  | .zone => (indexOf 32 i).map fun z => zoneEntryBytes (vget s.tab.zones z)
  | .recipe => (indexOf 16 i).map fun k => recipeBytes (vget s.tab.recipes k)
  | .step => (indexOf 64 i).map fun k => stepEntryBytes (vget s.tab.steps k)
  | .station => match stationOf i.toNat, decide (0 ≤ i) with
    | some st, true => some (stationEntryBytes (s.tab.stations.get st))
    | _, _ => none
  | .line => if i = 0 then some (lineBytes s.tab.line) else none
  | .map => (indexOf 96 i).map fun k => mapEntryBytes (vget s.tab.map k)

/-- Read `n` entries from index `i` by `step`; BAD_INDEX stops, with the count and entries read so far (R186). -/
def readEntries (s : Block) (t : TableId) (step : Int) : Nat → Int → Nat → List Byte → Status × Nat × List Byte
  | 0, _, w, acc => (.ok, w, acc)
  | n + 1, i, w, acc => match readEntry s t i with
    | some bs => readEntries s t step n (i + step) (w + 1) (acc ++ bs)
    | none => (.badIndex, w, acc)

end Sys2Proof.Machine
end

