-- ==== Sys2Proof/Machine/Image.lean ====
section
/-! DEFINITION. The configuration image (R190, R191, R44, R28): its bytes, its judgement, loading and storing it, and
the two resets of the part. -/

namespace Sys2Proof.Machine

open Sys2Proof

/-! ### The bytes of an image (R190) -/

/-- Every table in its written layout, in identifier and index order (R190). -/
def tablesBytes (t : Tables) : List Byte :=
  t.zones.toList.flatMap zoneEntryBytes ++ t.recipes.toList.flatMap recipeBytes ++
    t.steps.toList.flatMap stepEntryBytes ++ stationEntryBytes t.stations.a ++ stationEntryBytes t.stations.b ++
    lineBytes t.line ++ t.map.toList.flatMap fun e => mapConfigBytes e.config

/-- An image: signature, tables, mask set, check word over what stands between (R190). -/
def imageOf (t : Tables) (mask : BitVec 23) : List Byte :=
  let body := tablesBytes t ++ leBytes 3 mask.toNat
  leBytes 2 Config.imageSignature ++ body ++ leBytes 2 (frameCheck body).toNat

/-- An image is valid (R190). -/
def imageValid (bs : List Byte) : Bool :=
  decide (bs.length = Config.imageBytes) && decide (field bs 0 2 = Config.imageSignature) &&
    decide ((frameCheck ((bs.drop 2).take (Config.imageBytes - 4))).toNat = field bs (Config.imageBytes - 2) 2)

/-- Where each table begins in an image (R190). -/
def imageBase : TableId → Nat
  | .zone => 2
  | .recipe => 1058
  | .step => 1634
  | .station => 2402
  | .line => 2414
  | .map => 2445

/-- Where the mask set stands in an image. -/
def maskBase : Nat := 3309

/-- The written bytes of entry `i` of a table in an image. -/
def imageEntry (bs : List Byte) (t : TableId) (i : Nat) : List Byte :=
  (bs.drop (imageBase t + i * writtenSize t)).take (writtenSize t)

/-! ### Loading the tables (R44, R28, log 24) -/

/-- Load one Zone Table entry: the default where it fails its ranges or the checks against the enabled entries loaded
at lower indices (R44). -/
def loadZone (bs : List Byte) (t : Vector ZoneEntry 32) (z : Fin 32) : Vector ZoneEntry 32 :=
  match zoneEntryOf (imageEntry bs .zone z.val) with
  | some e => if zoneTableOk (vset t z e) then vset t z e else t
  | none => t

/-- The Zone Table of an image (R44). -/
def loadZones (bs : List Byte) : Vector ZoneEntry 32 :=
  allZones.foldl (loadZone bs) (Vector.replicate 32 defaultZoneEntry)

/-- Load one Sample Map entry: empty where it fails R29 or repeats a key or target loaded at a lower index (R28). -/
def loadMapEntry (bs : List Byte) (m : Vector MapEntry 96) (i : Fin 96) : Vector MapEntry 96 :=
  match mapConfigOf (imageEntry bs .map i.val) with
  | some c => if mapAllowed m i c then vset m i (neverEntry c) else m
  | none => m

/-- The Sample Map of an image (R26, R28). -/
def loadMap (bs : List Byte) : Vector MapEntry 96 :=
  (List.finRange 96).foldl (loadMapEntry bs) (Vector.replicate 96 (neverEntry none))

/-- The tables of a valid image; an entry that fails its checks takes its default (R44). -/
def loadTables (bs : List Byte) : Tables :=
  { zones := loadZones bs
    recipes := Vector.ofFn fun i => (recipeOf (imageEntry bs .recipe i.val)).getD defaultRecipe
    steps := Vector.ofFn fun i => (stepEntryOf (imageEntry bs .step i.val)).getD defaultStep
    stations :=
      { a := (stationEntryOf (imageEntry bs .station 0)).getD defaultStationEntry
        b := (stationEntryOf (imageEntry bs .station 1)).getD defaultStationEntry }
    line := (lineOf (imageEntry bs .line 0)).getD defaultLine
    map := loadMap bs }

/-- The mask set of an image; bit 23 is not used (R188, log 24). -/
def loadMask (bs : List Byte) : BitVec 23 := BitVec.ofNat 23 (field bs maskBase 3)

/-- The image a load finds, if it is valid and the memory answers (R190). -/
def foundImage (m : ConfigMemory) (answers : Bool) : Option (List Byte) := match m, answers with
  | .image bs, true => if imageValid bs then some bs else none
  | _, _ => none

/-- Tables and masks as the load leaves them (R190). -/
def takeImage (found : Option (List Byte)) (s : Block) : Block :=
  let t := match found with
    | some bs => loadTables bs
    | none => defaultTables
  let m := match found with
    | some bs => loadMask bs
    | none => BitVec.allOnes 23
  setLevel .imageInvalid found.isNone { s with tab := t, cdu := { s.cdu with mask := m } }

/-- A zone takes up its loaded entry (R87). -/
def zoneTakesUp (z : Fin 32) (s : Block) : Block := if (entryOf s z).enabled then enableZone z s else disableZone z s

/-- A station's permit refresh timer starts with the loaded period (R84). -/
def startRefresh (st : Station) (s : Block) : Block :=
  modStc st (fun c => { c with refresh := startTimer (s.tab.stations.get st).refresh }) s

/-- The load ends (R190): tables, masks, own address, zones, the budget event and its timer, the refresh timers. -/
def imageLoaded (answers : Bool) (s : Block) : Block :=
  if s.mga.image = .loading then
    let s1 := takeImage (foundImage s.mga.memory answers) s
    let s2 := { s1 with mga := { s1.mga with image := .ready }
                        rpu := { s1.rpu with ownAddress := s1.tab.line.own } }
    let s3 := startBudget (budgetEvent (allZones.foldl (fun s z => zoneTakesUp z s) s2))
    startRefresh .b (startRefresh .a s3)
  else s

/-! ### Storing (R191) -/

/-- STORE_IMAGE accepted: the copy is taken, the signature overwritten, the state STORING (R191, log 10). -/
def beginStore (s : Block) : Block :=
  { s with mga := { s.mga with image := .storing, storeCopy := imageOf s.tab s.cdu.mask, memory := .unsigned } }

/-- The store ends (R191). -/
def imageStored (completed : Bool) (s : Block) : Block :=
  if s.mga.image = .storing then
    if completed then
      latchCond .imageStored (setLevel .imageInvalid false
        { s with mga := { s.mga with image := .ready, memory := .image s.mga.storeCopy } })
    else setLevel .imageInvalid true { s with mga := { s.mga with image := .ready } }
  else s

/-! ### Resets (R187, R190, R192) -/

/-- Power-on or the release of RESET_N (R190). -/
def powerOnReset (s : Block) : Block := powerOnBlock s.mga.memory s.choices

/-- An accepted RESTART (R192): every block at its reset values but what the RPU keeps; the own address stays (R8). -/
def restarted (s : Block) : Block :=
  { powerOnBlock s.mga.memory s.choices with
    rpu := { s.rpu with controlQ := [], infoQ := [] }
    cdu := resetCdu (resetLevels s.rpu.inPort.link s.rpu.outPort.link) }

end Sys2Proof.Machine
end

