-- ==== Sys2Proof/Machine/Status.lean ====
section
/-! DEFINITION. The parts of READ_STATUS (R85, R108, R122, R146, R167, R185). -/

namespace Sys2Proof.Machine

open Sys2Proof

/-- A value with a stand-in for none. -/
def orElse (d : Nat) (x : Option Nat) : Nat := x.getD d

/-- A figure of the cycle context; 0 outside a cycle (R85). -/
def cycleFigure (s : Block) (st : Station) (f : Cycle → Nat) : Nat := match (stcOf s st).cycle with
  | some c => f c
  | none => 0

/-- The 19 bytes of a station part (R85). -/
def stationPart (s : Block) (st : Station) : List Byte :=
  let c := stcOf s st
  leBytes 1 (stationStateCode c.state) ++ leBytes 1 (orElse 255 (c.bound.map (·.val))) ++ leBytes 1 (stationFlags c) ++
    leBytes 1 (permitByte c.closeOk c.openOk) ++ leBytes 1 (noCycleCode c.noCycle) ++
    leBytes 4 (permitRecord s st) ++ leBytes 2 (cycleFigure s st (·.accrued) / 100) ++
    leBytes 4 (cycleFigure s st (·.outOfBand) / 100) ++ leBytes 4 (cycleFigure s st (·.elapsed) / 100)

/-- The record of an OPEN slot with this number. -/
def openWith (number : Nat) : HistorySlot → Option Record
  | .held .opened r => if r.number = number then some r else none
  | _ => none

/-- The record of a station's open cycle (R173). -/
def openRecordOf (s : Block) (st : Station) : Option Record := match (stcOf s st).cycle with
  | some c => allSlots.findSome? fun i => openWith c.record (vget s.hst.slots i)
  | none => none

/-- The peak force of the open record's demould part; 0 where there is none (R151, R167, log 33). -/
def peakForceOf (s : Block) (st : Station) : Nat :=
  orElse 0 ((openRecordOf s st).bind fun r => r.demould.map (·.peakForce))

/-- The 12 bytes of a sequencer part (R167). -/
def sequencerPart (s : Block) (st : Station) : List Byte :=
  let d := dmsOf s st
  leBytes 1 (seqStateCode d.state) ++ leBytes 1 (haltCauseCode d.cause) ++ leBytes 1 d.stepPos ++ [d.mask] ++
    leBytes 1 d.retries ++ [d.stuck] ++ leBytes 1 (orElse 255 d.probeGroup) ++ leBytes 1 (seqFlags d) ++
    leBytes 2 (orElse 65535 d.retractPos) ++ leBytes 2 (peakForceOf s st)

/-- The 16 bytes of a zone part (R108). -/
def zonePart (s : Block) (z : Fin 32) : List Byte :=
  let c := zoneOf s z
  let usable := pvUsable s z
  if c.state = .disabled then
    leBytes 1 (zoneStateCode c.state) ++ leBytes 1 (zoneCauseCode c.cause) ++ leBytes 1 (zoneFlags c false) ++
      leBytes 13 0
  else
    leBytes 1 (zoneStateCode c.state) ++ leBytes 1 (zoneCauseCode c.cause) ++ leBytes 1 (zoneFlags c usable) ++
      leInt 2 c.wsp ++ leInt 2 (if usable then pvOf s z else 0) ++ leBytes 2 c.r ++ leBytes 2 c.g ++
      leInt 3 c.iq ++ leBytes 1 c.faults0 ++ leBytes 1 c.faults1

/-- The 27 bytes of the budget part (R122). -/
def budgetPart (s : Block) : List Byte :=
  let p := s.pwa
  leBytes 1 p.pressure.toNat ++ leBytes 2 p.factor.c0 ++ leBytes 2 p.factor.c1 ++ leBytes 2 p.factor.c2 ++
    leBytes 4 p.load.c0 ++ leBytes 4 p.load.c1 ++ leBytes 4 p.load.c2 ++ leBytes 4 p.capacity ++
    leBytes 4 p.allowanceLoad

/-- The station of a place of the claim queue; 255 when empty (R146). -/
def claimByte (s : Block) (i : Nat) : Nat := orElse 255 ((s.scu.claims[i]?).map stationNum)

/-- The 23 bytes of the scale part (R146). -/
def scalePart (s : Block) : List Byte :=
  let u := s.scu
  leBytes 1 (orElse 0 (u.session.map fun v => sessionCode v.state)) ++
    leBytes 1 (orElse 255 (u.session.map fun v => stationNum v.owner)) ++
    leBytes 1 (orElse 0 (u.session.map (·.attempts))) ++ leBytes 1 (claimByte s 0) ++ leBytes 1 (claimByte s 1) ++
    leBytes 1 (scaleFlags u (windowFull s)) ++ leBytes 1 u.window.length ++ leInt 4 u.tare ++
    leInt 4 (filteredNet s) ++ leInt 4 (spreadOf s) ++ leInt 4 (u.latestGross.getD 0)

/-- The 8 bytes of the line part (R185). -/
def linePart (s : Block) : List Byte :=
  leBytes 1 (linkCode s.rpu.inPort.link) ++ leBytes 1 (linkCode s.rpu.outPort.link) ++
    leBytes 1 s.rpu.forwardQ.length ++ leBytes 1 s.rpu.controlQ.length ++ leBytes 1 s.rpu.infoQ.length ++
    leBytes 1 s.mga.requests.length ++ leBytes 1 (imageCode s.mga.image) ++ leBytes 1 s.rpu.ownAddress

/-- The parts of selector 0 and 1 (R185). -/
def stationsReport (s : Block) : List Byte :=
  stationPart s .a ++ stationPart s .b ++ sequencerPart s .a ++ sequencerPart s .b

def cellReport (s : Block) : List Byte := budgetPart s ++ scalePart s ++ linePart s

/-- The parts of selector 2: `n` zones from `z` (R185). -/
def zonesReport (s : Block) (z n : Nat) : List Byte :=
  (allZones.filter fun k => decide (z ≤ k.val) && decide (k.val < z + n)).flatMap (zonePart s)

/-- The nine counters of READ_COUNTERS, 2 bytes each, in the order of R19 (R20). -/
def counterBytes (c : Counters) : List Byte :=
  leBytes 2 c.crcErr ++ leBytes 2 c.returned ++ leBytes 2 c.hopExpired ++ leBytes 2 c.wrongKind ++
    leBytes 2 c.fwdDrop ++ leBytes 2 c.disconnect ++ leBytes 2 c.reqDrop ++ leBytes 2 c.rxFrames ++
    leBytes 2 c.txFrames

/-- A condition set as 3 bytes (R188). -/
def setBytes (v : BitVec 23) : List Byte := leBytes 3 v.toNat

end Sys2Proof.Machine
end

