-- ==== Sys2Proof/Machine/Clock.lean ====
section
/-! DEFINITION. The part's own clock: which event is due, and what one millisecond changes when none is (log 1, log 9). -/

namespace Sys2Proof.Machine

open Sys2Proof

/-! ### What is due (log 9) -/

/-- Both stations. -/
def stations : List Station := [.a, .b]

/-- The first of a list that satisfies `p`, as a command. -/
def firstDue {α : Type} (p : α → Bool) (c : α → Instr) (xs : List α) : Option Instr := (xs.find? p).map c

/-- A FRESH map entry has reached its freshness limit (R39). -/
def entryDue (s : Block) (i : Fin 96) : Bool :=
  let e := vget s.tab.map i
  match e.config with
  | some c => decide (e.freshness = .fresh) && decide (c.freshLimit ≤ e.age)
  | none => false

/-- The accrual has reached the cure time (R75, log 34). -/
def accrualDue (s : Block) (st : Station) : Bool := match (stcOf s st).cycle with
  | some c => decide (stateOf s st = .curing) && c.accruing && c.accrualUp
  | none => false

/-- The elapsed timer has reached the maximum cure time (R74). -/
def maxCureDue (s : Block) (st : Station) : Bool := match (stcOf s st).cycle with
  | some c => decide (stateOf s st = .curing) && c.elapsedRunning && decide (c.recipe.maxCure * 100 ≤ c.elapsed)
  | none => false

/-- The out-of-band time has exceeded the allowance and OUT_OF_BAND is not yet set (R76). -/
def allowanceDue (s : Block) (st : Station) : Bool := match (stcOf s st).cycle, openRecordOf s st with
  | some c, some r =>
    decide (stateOf s st = .curing) && c.outCounting && decide (c.recipe.allowance * 1000 < c.outOfBand) &&
      !hasFlag r.flags .outOfBand
  | _, _ => false

/-- A port in TRAINING has been clean for 2 ms (R2). -/
def cleanDue (p : PortState) : Bool :=
  decide (p.link = .training) && decide (p.reception = .clean) && decide (Config.cleanMs ≤ p.cleanTime)

/-- A waiting EVENT frame has room (R189). -/
def eventDue (s : Block) : Option Instr :=
  if eventWaiting s && decide (s.rpu.infoQ.length < Config.infoCapacity) then some .eventFrameJoin else none

/-- A waiting PART frame has room (R177). -/
def partDue (s : Block) : Option Instr :=
  if s.hst.collection.isSome && partMayJoin s then some .partFrameJoin else none

/-- The oldest waiting request (R182). -/
def requestDue (s : Block) : Option Instr := s.mga.requests.head?.map decodeRequest

/-- The ports' clean times (R2). -/
def linkDue (s : Block) : Option Instr :=
  if cleanDue s.rpu.inPort then some (.linkCleanTimeExpiry .inp)
  else if cleanDue s.rpu.outPort then some (.linkCleanTimeExpiry .out) else none

/-- A block's single timer. -/
def timerAsk (t : Timer) (c : Instr) : Option Instr := if timerDue t then some c else none

/-- The timers of the stations and their sequencers. DESIGN CHOICE (log 9): those due together are taken in this order, A
before B in each kind. -/
def stationDue (s : Block) : Option Instr :=
  firstDue (accrualDue s) .cureAccrualComplete stations <|>
    firstDue (maxCureDue s) .maximumCureTimeExpiry stations <|>
    firstDue (allowanceDue s) .outOfBandAllowanceExceeded stations <|>
    firstDue (fun st => timerDue (stcOf s st).settle) .settleTimerExpiry stations <|>
    firstDue (fun st => timerDue (dmsOf s st).stepTimer) .stepTimerExpiry stations <|>
    firstDue (fun st => timerDue (dmsOf s st).dwellTimer) .dwellTimerExpiry stations <|>
    firstDue (fun st => timerDue (stcOf s st).refresh) .permitRefreshExpiry stations

/-- The timers of the zones, the scale and the budget. DESIGN CHOICE (log 9): of those due together, blind holds before
regulation events, then the stable dwell before the loading timer (R140 allows either), then the budget. -/
def cellDue (s : Block) : Option Instr :=
  firstDue (fun z => timerDue (zoneOf s z).blindHold) .blindHoldExpiry allZones <|>
    firstDue (fun z => timerDue (zoneOf s z).timer) .regulationEvent allZones <|>
    timerAsk s.scu.dwell .stableDwellExpiry <|> timerAsk s.scu.loading .loadingTimerExpiry <|>
    timerAsk s.pwa.timer .budgetPeriodExpiry

/-- The event that is due, if any, in the order of log 9. -/
def dueCommand (s : Block) : Option Instr :=
  eventDue s <|> partDue s <|> requestDue s <|> linkDue s <|>
    firstDue (entryDue s) .sampleEntryStale (List.finRange 96) <|> stationDue s <|> cellDue s

/-! ### One millisecond -/

/-- A count that saturates where its record field ends (R73, R76, R166). -/
def tickLong (n : Nat) : Nat := min (n + 1) Config.longMax

/-- A port: the clean time counts in TRAINING on valid symbols (R2). -/
def tickPort (p : PortState) : PortState :=
  if p.link = .training ∧ p.reception = .clean then { p with cleanTime := min (p.cleanTime + 1) Config.cleanMs }
  else p

/-- A map entry: the age counts while FRESH or STALE (R31). -/
def tickEntry (e : MapEntry) : MapEntry :=
  if e.freshness = .never then e else { e with age := min (e.age + 1) 65535 }

/-- A cycle context: the counts that run (R73 to R76). The ms that would complete the cure time is counted by
CURE_ACCRUAL_COMPLETE alone, so that an event taken before it finds the accrual short (R75, R79, log 34). -/
def tickCycle (c : Cycle) : Cycle :=
  { c with
    chargeWait := if c.waitRunning then tickLong c.chargeWait else c.chargeWait
    accrued := if c.accruing && decide (c.accrued + 1 < c.recipe.cure * 100) then c.accrued + 1 else c.accrued
    accrualUp := c.accrualUp || (c.accruing && decide (c.recipe.cure * 100 ≤ c.accrued + 1))
    outOfBand := if c.outCounting then tickLong c.outOfBand else c.outOfBand
    elapsed := if c.elapsedRunning then min (c.elapsed + 1) (c.recipe.maxCure * 100) else c.elapsed }

/-- A Station Controller. -/
def tickStc (c : Stc) : Stc :=
  { c with settle := tickTimer c.settle, refresh := tickTimer c.refresh, cycle := c.cycle.map tickCycle }

/-- A Demould Sequencer. -/
def tickDms (d : Dms) : Dms :=
  { d with stepTimer := tickTimer d.stepTimer, dwellTimer := tickTimer d.dwellTimer, clock := d.clock.map tickLong }

/-- A zone context. -/
def tickZone (z : Zone) : Zone := { z with timer := tickTimer z.timer, blindHold := tickTimer z.blindHold }

/-- One millisecond of the part's reference clock. -/
def tick (s : Block) : Block :=
  { s with
    rpu := { s.rpu with inPort := tickPort s.rpu.inPort, outPort := tickPort s.rpu.outPort }
    tab := { s.tab with map := vmap tickEntry s.tab.map }
    stc := { a := tickStc s.stc.a, b := tickStc s.stc.b }
    dms := { a := tickDms s.dms.a, b := tickDms s.dms.b }
    zrg := { s.zrg with zones := vmap tickZone s.zrg.zones }
    pwa := { s.pwa with timer := tickTimer s.pwa.timer }
    scu := { s.scu with dwell := tickTimer s.scu.dwell, loading := tickTimer s.scu.loading }
    hst := { s.hst with lineTime := s.hst.lineTime.map tickStamp } }

end Sys2Proof.Machine
end

