-- ==== Sys2Proof/Machine/Manage.lean ====
section
/-! DEFINITION. The Management Agent's judgement of a request (R182, R183) and what each request does (R20, R60 to R65,
R81, R83, R131 to R133, R171, R172, R176, R179, R184 to R188, R191, R192). An owner answers with a status, a reply body
and the block after; it has taken its events (`event`) already. -/

namespace Sys2Proof.Machine

open Sys2Proof

/-! ### Taking and judging (R182, R183) -/

/-- Request classes (R184). -/
inductive RequestClass where
  | read | write
  deriving DecidableEq, Repr

/-- A source the management master admits; a master of 255 accepts every source (R183). -/
def masterAdmits (s : Block) (src : Byte) : Bool :=
  decide (s.tab.line.master = 255) || decide (src.toNat = s.tab.line.master)

/-- Checks 2 to 4 of R183: the status of the first that fails. -/
def judgeRequest (cls : RequestClass) (form : Bool) (src : Byte) (s : Block) : Option Status :=
  if s.mga.image = .loading then some .busy
  else if !form then some .badRequest
  else if decide (cls = .write) && !masterAdmits s src then some .refused
  else none

/-- What an owner answers: status, reply body, the block after. -/
structure Answer where
  status : Status
  body : List Byte
  after : Block

/-- An answer without a body that changes nothing. -/
def refuse (st : Status) (s : Block) : Answer := { status := st, body := [], after := s }

/-- An answer OK without a body. -/
def accept (s : Block) : Answer := { status := .ok, body := [], after := s }

/-- An answer OK with a body that changes nothing. -/
def report (body : List Byte) (s : Block) : Answer := { status := .ok, body := body, after := s }

/-- Post an owner's answer as the MREPLY. -/
def answer (q : Sender) (code : Nat) (a : Answer) : Block := reply q code a.status a.body a.after

/-- A request judged and handed to its owner, whose answer is posted (R183). -/
def serve (q : Sender) (code : Nat) (cls : RequestClass) (form : Bool) (owner : Block → Answer) (s : Block) : Block :=
  match judgeRequest cls form q.src s with
  | some st => answer q code (refuse st s)
  | none => answer q code (owner s)

/-- The take of a request (R182): it leaves the front of the queue. With the queue empty the request has just arrived
and is taken at once; where another request is at the front this take cannot happen (log 4). -/
def takeRequest (r : Request) (s : Block) : Option Block := match s.mga.requests with
  | [] => some s
  | x :: rest => if x = r then some { s with mga := { s.mga with requests := rest } } else none

/-- Take a request and act on it. -/
def whenTaken (r : Request) (act : Block → Block) (s : Block) : Block := match takeRequest r s with
  | some s1 => act s1
  | none => s

/-! ### Reads (R20, R180, R184 to R186, R188) -/

/-- READ_ID (R184). -/
def ownReadId (s : Block) : Answer :=
  report (leBytes 2 Config.vendorCode ++ leBytes 2 Config.partCode ++ leBytes 1 Config.revision ++
    leBytes 1 s.rpu.ownAddress) s

/-- The form of READ_STATUS: 3 bytes, a selector of at most 2, for selector 2 a zone count of 1..7 (R184, R185). -/
def statusForm (body : List Byte) : Bool :=
  decide (body.length = 3) && decide (field body 0 1 ≤ 2) &&
    (decide (field body 0 1 ≠ 2) || (decide (1 ≤ field body 2 1) && decide (field body 2 1 ≤ 7)))

/-- READ_STATUS (R185). -/
def ownReadStatus (body : List Byte) (s : Block) : Answer := match field body 0 1 with
  | 0 => report (stationsReport s) s
  | 1 => report (cellReport s) s
  | _ =>
    if 32 < field body 1 1 + field body 2 1 then refuse .badIndex s
    else report (zonesReport s (field body 1 1) (field body 2 1)) s

/-- READ_COUNTERS (R20). -/
def ownReadCounters (s : Block) : Answer := report (counterBytes s.rpu.counters) s

/-- READ_COUNTERS with clear: the values as they stood, then all 0 (R20). -/
def ownClearCounters (s : Block) : Answer :=
  { status := .ok, body := counterBytes s.rpu.counters, after := modCounters (fun _ => zeroCounters) s }

/-- READ_CONDITIONS (R188). -/
def ownReadConditions (s : Block) : Answer :=
  report (setBytes s.cdu.present ++ setBytes s.cdu.latched ++ setBytes s.cdu.mask ++
    leBytes 1 (!s.cdu.gateOpen).toNat) s

/-- HISTORY_SUMMARY (R180). -/
def ownSummary (s : Block) : Answer := report (summaryBody s.hst) s

/-! ### Table access (R186) -/

/-- The body names a table identifier above 5 (R183, check 3). -/
def tableUnknown (body : List Byte) : Bool := decide (1 ≤ body.length) && decide (5 < field body 0 1)

/-- The length that R183, check 3, asks of a TABLE_WRITE: 4 bytes and its entries (R184). Its step byte is judged by the
owner, after the master check. -/
def writeForm (t : TableId) (body : List Byte) : Bool :=
  decide (4 ≤ body.length) && decide (body.length = 4 + field body 3 1 * writtenSize t)

/-- The form of a TABLE_READ (R184, R186): 4 bytes, a step of +1 or −1, at most 116 bytes of entries. A read-class request
has no master check between its length and its owner. -/
def readForm (t : TableId) (body : List Byte) : Bool :=
  decide (body.length = 4) && (stepByte (field body 2 1)).isSome && decide (field body 3 1 * readSize t ≤ 116)

/-- TABLE_WRITE: BAD_REQUEST for a step other than +1 or −1 (R184), BUSY while STORING, else entry by entry; the reply
carries the count written (R186). DEDUCED (log 14): the step is judged before STORING. -/
def ownTableWrite (t : TableId) (body : List Byte) (s : Block) : Answer := match stepByte (field body 2 1) with
  | none => { status := .badRequest, body := leBytes 1 0, after := s }
  | some d =>
    if s.mga.image = .storing then { status := .busy, body := leBytes 1 0, after := s }
    else
      let x := writeEntries t d (field body 3 1) (field body 1 1) (body.drop 4) 0 s
      { status := x.1, body := leBytes 1 x.2.1, after := x.2.2 }

/-- A TABLE_WRITE through its checks (R183, R186). Its reply carries a count whatever its status (log 13). -/
def serveTableWrite (q : Sender) (body : List Byte) (s : Block) : Block :=
  let zero : List Byte := leBytes 1 0
  if s.mga.image = .loading then answer q codeTableWrite { status := .busy, body := zero, after := s }
  else if tableUnknown body then answer q codeTableWrite { status := .badIndex, body := zero, after := s }
  else match tableOf (field body 0 1) with
    | none => answer q codeTableWrite { status := .badRequest, body := zero, after := s }
    | some t =>
      if !writeForm t body then answer q codeTableWrite { status := .badRequest, body := zero, after := s }
      else if !masterAdmits s q.src then answer q codeTableWrite { status := .refused, body := zero, after := s }
      else answer q codeTableWrite (ownTableWrite t body s)

/-- TABLE_READ (R186). -/
def ownTableRead (t : TableId) (body : List Byte) (s : Block) : Answer :=
  let x := readEntries s t ((stepByte (field body 2 1)).getD 1) (field body 3 1) (field body 1 1) 0 []
  { status := x.1, body := leBytes 1 x.2.1 ++ x.2.2, after := s }

/-- A TABLE_READ through its checks (R183, R186). -/
def serveTableRead (q : Sender) (body : List Byte) (s : Block) : Block :=
  if s.mga.image = .loading then answer q codeTableRead (refuse .busy s)
  else if tableUnknown body then answer q codeTableRead (refuse .badIndex s)
  else match tableOf (field body 0 1) with
    | none => answer q codeTableRead (refuse .badRequest s)
    | some t => serve q codeTableRead .read (readForm t body) (ownTableRead t body) s

/-! ### Station commands (R60 to R65, R81, R83) -/

/-- A command of the station its first byte names; BAD_INDEX above 1 (R60). -/
def forStation (st : Byte) (act : Station → Block → Answer) (s : Block) : Answer := match stationOf st.toNat with
  | some x => act x s
  | none => refuse .badIndex s

/-- A recipe index 0..15 (R61). -/
def recipeIndexOf (n : Nat) : Option (Fin 16) := if h : n < 16 then some ⟨n, h⟩ else none

/-- The effect of an accepted bind (R61). -/
def bindEffect (st : Station) (i : Fin 16) (s : Block) : Block :=
  let s1 := modStc st (fun c => { c with bound := some i }) s
  match stateOf s st with
  | .preheat | .ready =>
    startSettle st (setNoCycle st .none
      (modStc st (fun c => { c with state := .preheat, heatReady := false, settle := none }) s1))
  | _ => s1

/-- BIND_RECIPE (R61); the zones' target moves follow as their own event (R106). -/
def ownBind (arg : Byte) (st : Station) (s : Block) : Answer :=
  if isCycleState (stateOf s st) then refuse .notAllowed s
  else match recipeIndexOf arg.toNat with
    | none => refuse .badIndex s
    | some i =>
      if (chainOf s (vget s.tab.recipes i)).isNone then refuse .badEntry s
      else accept (thenMove st (event (bindEffect st i) s))

/-- The checks of WAKE (R62). -/
def wakeAllowed (s : Block) (st : Station) : Bool :=
  (decide (stateOf s st = .off) || decide (stateOf s st = .standby)) && (stcOf s st).bound.isSome &&
    !(zonesOf s st).isEmpty

/-- WAKE (R62, R118). -/
def ownWake (st : Station) (s : Block) : Answer :=
  if !wakeAllowed s st then refuse .notAllowed s
  else if s.pwa.pressure then
    { status := .deferred, body := [], after := modStc st (fun c => { c with deferredWake := true }) s }
  else accept (event (enterHeat st) s)

/-- STANDBY (R64). -/
def ownStandby (st : Station) (s : Block) : Answer := match stateOf s st with
  | .off | .preheat | .ready => accept (event (goStandby st) s)
  | .standby => accept (modStc st (fun c => { c with deferredWake := false }) s)
  | _ => refuse .notAllowed s

/-- OFF (R64). -/
def ownOff (st : Station) (s : Block) : Answer := match stateOf s st with
  | .standby | .preheat | .ready => accept (event (goOff st) s)
  | .off => accept (modStc st (fun c => { c with deferredWake := false }) s)
  | _ => refuse .notAllowed s

/-- PRODUCE (R65). DEDUCED (log 42): with the flag already set it changes nothing, and so takes no cycle-open test either,
although R65 and R68 name an accepted PRODUCE in READY among the test's events. -/
def ownProduce (st : Station) (s : Block) : Answer :=
  if (stcOf s st).production then accept s
  else accept (event (fun s => cycleOpenTest st (modStc st (fun c => { c with production := true }) s)) s)

/-- STOP (R65, R69). -/
def ownStop (st : Station) (s : Block) : Answer :=
  accept (setNoCycle st .none (modStc st (fun c => { c with production := false }) s))

/-- The effect of ABORT_CYCLE in a state that takes it (R83). -/
def abortEffect (st : Station) (s : Block) : Block := match stateOf s st with
  | .charging => endFromCharging st s
  | .pressLoad => endFromPressLoad st s
  | .curing => enterOpening st (setFlag st .aborted s)
  | .opening => setFlag st .aborted s
  | .demoulding => abortDms st (setFlag st .aborted s)
  | _ => s

/-- ABORT_CYCLE (R83). -/
def ownAbort (st : Station) (s : Block) : Answer := match stateOf s st with
  | .off | .standby | .preheat | .ready | .held => refuse .notAllowed s
  | _ => accept (event (abortEffect st) s)

/-- ZONE_RECOVER (R60, R104). -/
def ownZoneRecover (arg : Byte) (st : Station) (s : Block) : Answer := match zoneIndexOf arg.toNat with
  | none => refuse .badIndex s
  | some z =>
    if (entryOf s z).station ≠ st then refuse .notAllowed s
    else { status := (recoverZone z s).1, body := [], after := event (fun s => (recoverZone z s).2) s }

/-- DEMOULD_RELEASE (R81, R163). -/
def ownRelease (st : Station) (s : Block) : Answer :=
  if stateOf s st = .held then accept (event (fun s => releaseDms st (leaveHeld st s)) s) else refuse .notAllowed s

/-- DEMOULD_RESET (R81, R164). -/
def ownDemouldReset (st : Station) (s : Block) : Answer :=
  if stateOf s st = .held then accept (event (fun s => resetSequencer st (leaveHeld st s)) s)
  else refuse .notAllowed s

/-- A STATION_COMMAND through its checks (R60, R183). -/
def serveStation (q : Sender) (st : Byte) (act : Station → Block → Answer) (s : Block) : Block :=
  serve q codeStation .write true (forStation st act) s

/-! ### Scale commands (R130 to R133) -/

/-- The session is in LOADING or SETTLING (R131, R132). -/
def weighing (s : Block) : Bool :=
  s.scu.session.any fun u => decide (u.state = .loading) || decide (u.state = .settling)

/-- TARE (R131). -/
def ownTare (s : Block) : Answer :=
  if weighing s then refuse .busy s
  else if !windowFull s then refuse .notAllowed s
  else
    let g := filteredGross s
    let rise := g - s.scu.tare
    accept (modScu (fun u =>
      { u with tare := g, window := u.window.map fun e => { e with net := e.net - rise } }) s)

/-- The mean raw count of the window (R132). -/
def meanRaw (s : Block) : Int := roundDiv (s.scu.window.map (·.raw)).sum (windowLength s.tab.line)

/-- Store a scale zero (R132). -/
def putScaleZero (z : Int) (s : Block) : Block :=
  { s with tab := { s.tab with line := { s.tab.line with zero := z } } }

/-- ZERO (R132). -/
def ownZero (s : Block) : Answer :=
  if weighing s then refuse .busy s
  else if !s.scu.stable then refuse .notAllowed s
  else if s.tab.line.capacity < (filteredGross s).natAbs * 50 then refuse .notAllowed s
  else
    let z := meanRaw s
    if z = s.tab.line.zero then accept s else accept (event (fun s => clearWindow (putScaleZero z s)) s)

/-- The stations a CANCEL names (R133). -/
def cancelNames : Nat → Option (List Station)
  | 0 => some [.a]
  | 1 => some [.b]
  | 255 => some [.a, .b]
  | _ => none

/-- The station has a claim waiting. -/
def hasClaim (s : Block) (st : Station) : Bool := decide (st ∈ s.scu.claims)

/-- A named station's waiting claim is withdrawn and the station receives a cancellation (R133); the close that follows is an
event of its own (R82, log 5). -/
def cancelClaim (st : Station) (s : Block) : Block :=
  if hasClaim s st then arbitrate (event (fun s => cancelled st (withdrawClaim st s)) s) else s

/-- A named station's session ends and the station receives a cancellation; the oldest claim left is granted at the
end (R133, R134). -/
def cancelSession (st : Station) (s : Block) : Block := match s.scu.session with
  | some u =>
    if u.owner = st then arbitrate (event (fun s => grantOldest (cancelled st (cutSession u s))) s) else s
  | none => s

/-- CANCEL of the named stations: claims first, then the session (R133, log 18). -/
def cancelStations (names : List Station) (s : Block) : Block :=
  let claimers := names.filter (hasClaim s)
  let owners := names.filter fun st => ownsSession st s
  owners.foldl (fun s st => cancelSession st s) (claimers.foldl (fun s st => cancelClaim st s) s)

/-- CANCEL (R133). -/
def ownCancel (st : Byte) (s : Block) : Answer := match cancelNames st.toNat with
  | none => refuse .badIndex s
  | some names =>
    if names.any fun x => hasClaim s x || ownsSession x s then accept (cancelStations names s)
    else refuse .notAllowed s

/-! ### Conditions (R188) -/

/-- The form of CLEAR_CONDITIONS: a count and that many numbers (R184). -/
def clearForm (body : List Byte) : Bool := decide (1 ≤ body.length) && decide (body.length = 1 + field body 0 1)

/-- The numbers listed. -/
def listed (body : List Byte) : List Nat := (body.drop 1).map (·.toNat)

/-- The set of the numbers of a list. -/
def condSet (ks : List Nat) : BitVec 23 := ks.foldl (fun v k => v ||| condBit k) 0

/-- CLEAR_CONDITIONS (R188). -/
def ownClearConditions (body : List Byte) (s : Block) : Answer :=
  let ks := listed body
  if ks.any fun k => decide (22 < k) then refuse .badIndex s
  else
    let latched := s.cdu.latched &&& ~~~(condSet ks &&& ~~~s.cdu.present)
    let left := condNumbers (condSet ks &&& s.cdu.present &&& latched)
    { status := .ok, body := byteOf left.length :: left.map byteOf
      after := { s with cdu := { s.cdu with latched := latched, gateOpen := true } } }

/-- SET_MASK (R188). -/
def ownSetMask (body : List Byte) (s : Block) : Answer :=
  if 2 ^ 23 ≤ field body 0 3 then refuse .badEntry s
  else accept { s with cdu := { s.cdu with mask := BitVec.ofNat 23 (field body 0 3) } }

/-- FORCE_CONDITION (R188). -/
def ownForce (body : List Byte) (s : Block) : Answer :=
  if 22 < field body 0 1 then refuse .badIndex s else accept (latch (field body 0 1) s)

/-! ### History requests (R171, R172, R176, R178, R179) -/

/-- Some record is OPEN. -/
def anyOpen (h : Hst) : Bool := decide (0 < countSlots (isHolding .opened) h)

/-- SET_RECORD_BASE (R171, R181, R68). -/
def ownSetBase (body : List Byte) (s : Block) : Answer :=
  let n := field body 0 4
  if n = 0 then refuse .badEntry s
  else if anyOpen s.hst then refuse .notAllowed s
  else if !counterAbove s.hst n then refuse .notAllowed s
  else accept (event (fun s =>
    testStations (setLevel .recordBaseUnset false (modHst (fun h => { h with counter := some n }) s))) s)

/-- SET_TIME (R172). -/
def ownSetTime (body : List Byte) (s : Block) : Answer :=
  if 999 < field body 4 2 then refuse .badEntry s
  else accept (modHst (fun h => { h with lineTime := some { sec := field body 0 4, ms := field body 4 2 } }) s)

/-- A collection of the `c` oldest collectable records begins and is offered at once (R176, R177). -/
def beginCollection (q : Sender) (c : Nat) (s : Block) : Block :=
  serveCollection (modHst (fun h =>
    { h with collection := some { selection := selectOldest c h, requester := q, placed := 0, first := 0, last := 0 } })
    s)

/-- COLLECT through its checks (R176, R183); its reply comes with the end of the collection. DEDUCED (log 39): the count is
judged before the collection in progress, in the order in which R176 states the two. -/
def serveCollect (q : Sender) (body : List Byte) (s : Block) : Block :=
  match judgeRequest .write (decide (body.length = 1)) q.src s with
  | some st => answer q codeCollect (refuse st s)
  | none =>
    let c := field body 0 1
    if c = 0 ∨ 8 < c then answer q codeCollect (refuse .badEntry s)
    else if s.hst.collection.isSome then answer q codeCollect (refuse .busy s)
    else beginCollection q c s

/-- The effect of RELEASE (R178, R179): the records are freed, an emptied selection ends its collection, and, where a
slot was freed, the conditions are judged and READY stations take the cycle-open test. -/
def releaseEffect (r : Nat) (s : Block) : Block :=
  let s1 := endCollection (modHst (freeSent r) s)
  if releaseCount r s.hst = 0 then s1 else testStations (judgeHigh (judgeFull s1))

/-- RELEASE (R179). -/
def ownReleaseRecords (body : List Byte) (s : Block) : Answer :=
  let r := field body 0 4
  { status := .ok, body := leBytes 1 (releaseCount r s.hst), after := event (releaseEffect r) s }

/-! ### Image and reset (R191, R192) -/

/-- STORE_IMAGE (R191). -/
def ownStoreImage (s : Block) : Answer :=
  if s.mga.image = .storing then refuse .busy s else accept (beginStore s)

/-- Any record is held (R192). -/
def anyRecord (h : Hst) : Bool := decide (countSlots isFree h < 48)

/-- RESTART (R192). -/
def ownRestart (force : Bool) (s : Block) : Answer :=
  if s.mga.image = .storing then refuse .busy s
  else if anyRecord s.hst && !force then refuse .notAllowed s
  else accept (restarted s)

/-! ### Requests that name no row (R183, log 15) -/

/-- What an owner answers a request of the right length that names no row: BAD_REQUEST for an unknown command code or
option (R60, R130, R184), after the station field of a STATION_COMMAND. DEDUCED (log 14): before BUSY while STORING. -/
def ownUnknown (code : Byte) (body : List Byte) (s : Block) : Answer :=
  if code.toNat = codeStation then forStation (body.getD 0 0) (fun _ s => refuse .badRequest s) s
  else refuse .badRequest s

/-- A write-class request that names no row has the length its code requires (R60, R130, R184): it passes check 3 of R183,
and its command code or option is judged after the master check. READ_COUNTERS is no write with an option above 1, so no
master check stands before its BAD_REQUEST (log 14). -/
def unknownForm (code : Byte) (body : List Byte) : Bool :=
  (decide (code.toNat = codeStation) && decide (body.length = 3)) ||
    (decide (code.toNat = codeScale) && decide (body.length = 2)) ||
    (decide (code.toNat = codeRestart) && decide (body.length = 1))

end Sys2Proof.Machine
end

