-- ==== Sys2Proof/Machine/Events.lean ====
section
/-! DEFINITION. The meanings of the commands that are no requests: reset and link, frames, samples, configuration memory
and timers. A timer command is the moment its timer reaches its length; with the timer stopped it changes nothing
(log 2). Every command ends with the decision of the OUT arbiter, where one is due, as every event inside it does (R11,
log 5). -/

namespace Sys2Proof.Machine

open Sys2Proof

/-- A command's effect on the blocks, closed by the arbiter; the waiting commands are not touched (log 5). -/
def finish (f : Block → Block) (s : State) : Host.Outcome State Fault Refusal :=
  .next { toBlock := arbitrate (f s.toBlock), pending := s.pending }

/-! ### Reset and link -/

/-- POWER_ON (R190): power-on, or the release of RESET_N. -/
def execPowerOn (s : State) : Host.Outcome State Fault Refusal := finish powerOnReset s

/-- LINK_SIGNAL_PRESENT (R2). -/
def execLinkSignalPresent (p : Port) (valid : Bool) (s : State) : Host.Outcome State Fault Refusal :=
  finish (signalPresent p valid) s

/-- LINK_TRAINING_DISTURBED (R2). -/
def execLinkTrainingDisturbed (p : Port) (d : Disturbance) (s : State) : Host.Outcome State Fault Refusal :=
  finish (trainingDisturbed p d) s

/-- LINK_CLEAN_TIME_EXPIRY (R2). -/
def execLinkCleanTimeExpiry (p : Port) (s : State) : Host.Outcome State Fault Refusal := finish (cleanTimeDone p) s

/-- LINK_TRAINING_SIGNAL_LOSS (R2). -/
def execLinkTrainingSignalLoss (p : Port) (s : State) : Host.Outcome State Fault Refusal := finish (trainingLost p) s

/-- LINK_LOSS (R2, R4). -/
def execLinkLoss (p : Port) (signal : Bool) (s : State) : Host.Outcome State Fault Refusal :=
  finish (linkLost p signal) s

/-! ### Frames and samples -/

/-- FRAME_RECEIVED (R7). -/
def execFrameReceived (f : RxFrame) (s : State) : Host.Outcome State Fault Refusal := finish (receive f) s

/-- FRAME_TRANSMIT_COMPLETE (R11). -/
def execFrameTransmitComplete (s : State) : Host.Outcome State Fault Refusal := finish transmitDone s

/-- EVENT_FRAME_JOIN (R189). -/
def execEventFrameJoin (s : State) : Host.Outcome State Fault Refusal := finish joinEvent s

/-- PART_FRAME_JOIN (R177). -/
def execPartFrameJoin (s : State) : Host.Outcome State Fault Refusal := finish joinPart s

/-- SAMPLE_ENTRY_STALE (R39). -/
def execSampleEntryStale (i : Fin 96) (s : State) : Host.Outcome State Fault Refusal :=
  finish (event (entryGoesStale i)) s

/-! ### Configuration memory -/

/-- IMAGE_LOAD_COMPLETE (R190). -/
def execImageLoadComplete (answers : Bool) (s : State) : Host.Outcome State Fault Refusal :=
  finish (event (imageLoaded answers)) s

/-- IMAGE_STORE_END (R191). -/
def execImageStoreEnd (completed : Bool) (s : State) : Host.Outcome State Fault Refusal :=
  finish (imageStored completed) s

/-! ### Station timers -/

/-- Act at the expiry of a timer that runs (log 2). -/
def whenRunning (t : Block → Timer) (act : Block → Block) (s : Block) : Block :=
  if (t s).isSome then event act s else s

/-- SETTLE_TIMER_EXPIRY (R67). -/
def execSettleTimerExpiry (st : Station) (s : State) : Host.Outcome State Fault Refusal :=
  finish (whenRunning (fun b => (stcOf b st).settle) (settleDone st)) s

/-- The accrued cure time reaches the cure time (R74, R75): its last ms is counted and the station is in OPENING. -/
def accrualDone (st : Station) (s : Block) : Block := match stateOf s st, (stcOf s st).cycle with
  | .curing, some c =>
    if c.accruing then enterOpening st (modCycle st (fun c => { c with accrued := c.recipe.cure * 100 }) s) else s
  | _, _ => s

/-- CURE_ACCRUAL_COMPLETE (R75). -/
def execCureAccrualComplete (st : Station) (s : State) : Host.Outcome State Fault Refusal :=
  finish (event (accrualDone st)) s

/-- The CURING elapsed timer reaches the maximum cure time (R74). -/
def maxCureDone (st : Station) (s : Block) : Block := match stateOf s st, (stcOf s st).cycle with
  | .curing, some c =>
    if c.elapsedRunning then
      enterOpening st (setFlag st .cureIncomplete
        (modCycle st (fun c => { c with elapsed := c.recipe.maxCure * 100 }) s))
    else s
  | _, _ => s

/-- MAXIMUM_CURE_TIME_EXPIRY (R74). -/
def execMaximumCureTimeExpiry (st : Station) (s : State) : Host.Outcome State Fault Refusal :=
  finish (event (maxCureDone st)) s

/-- The out-of-band time exceeds the allowance (R76); the count is brought to at least the first ms past it (log 27). -/
def allowancePassed (st : Station) (s : Block) : Block := match stateOf s st, (stcOf s st).cycle with
  | .curing, some c =>
    if c.outCounting then
      setFlag st .outOfBand
        (modCycle st (fun c => { c with outOfBand := max c.outOfBand (c.recipe.allowance * 1000 + 1) }) s)
    else s
  | _, _ => s

/-- OUT_OF_BAND_ALLOWANCE_EXCEEDED (R76). -/
def execOutOfBandAllowanceExceeded (st : Station) (s : State) : Host.Outcome State Fault Refusal :=
  finish (event (allowancePassed st)) s

/-- PERMIT_REFRESH_EXPIRY (R84). -/
def execPermitRefreshExpiry (st : Station) (s : State) : Host.Outcome State Fault Refusal :=
  finish (whenRunning (fun b => (stcOf b st).refresh) (postPermit st)) s

/-! ### Zone and budget timers -/

/-- REGULATION_EVENT (R88). -/
def execRegulationEvent (z : Fin 32) (s : State) : Host.Outcome State Fault Refusal :=
  finish (whenRunning (fun b => (zoneOf b z).timer) (regulation z)) s

/-- The blind hold timer of a zone in BLIND reaches its length (R101). -/
def blindExpired (z : Fin 32) (s : Block) : Block :=
  if (zoneOf s z).state = .blind then enterFault z .sensorLost s else s

/-- BLIND_HOLD_EXPIRY (R101). -/
def execBlindHoldExpiry (z : Fin 32) (s : State) : Host.Outcome State Fault Refusal :=
  finish (whenRunning (fun b => (zoneOf b z).blindHold) (blindExpired z)) s

/-- BUDGET_PERIOD_EXPIRY (R110): the timer restarts and the budget event is taken. -/
def execBudgetPeriodExpiry (s : State) : Host.Outcome State Fault Refusal :=
  finish (whenRunning (fun b => b.pwa.timer) (fun b => budgetEvent (startBudget b))) s

/-! ### Scale timers -/

/-- STABLE_DWELL_EXPIRY (R138). -/
def execStableDwellExpiry (s : State) : Host.Outcome State Fault Refusal :=
  finish (whenRunning (fun b => b.scu.dwell) capture) s

/-- The loading timer reaches its length (R140). -/
def loadingTimeout (s : Block) : Block := match s.scu.session with
  | some u => deliverOutcome (timeoutAttempt u s)
  | none => s

/-- LOADING_TIMER_EXPIRY (R140). -/
def execLoadingTimerExpiry (s : State) : Host.Outcome State Fault Refusal :=
  finish (whenRunning (fun b => b.scu.loading) loadingTimeout) s

/-! ### Sequencer timers -/

/-- STEP_TIMER_EXPIRY (R152). -/
def execStepTimerExpiry (st : Station) (s : State) : Host.Outcome State Fault Refusal :=
  finish (whenRunning (fun b => (dmsOf b st).stepTimer) (stepExpiry st)) s

/-- DWELL_TIMER_EXPIRY (R154, R158). -/
def execDwellTimerExpiry (st : Station) (s : State) : Host.Outcome State Fault Refusal :=
  finish (whenRunning (fun b => (dmsOf b st).dwellTimer) (dwellExpiry st)) s

end Sys2Proof.Machine
end

