-- ==== Sys2Proof/Machine/Requests.lean ====
section
/-! DEFINITION. The meanings of the request commands: each is the take of that request by the Management Agent (R182,
log 4), its judgement (R183) and what its owner does (Machine/Manage.lean). -/

namespace Sys2Proof.Machine

open Sys2Proof

/-- SHORT_REQUEST_DISCARD (R24, R183): taken and discarded without a reply; a payload of 2 bytes or more is no short
request, and the command then cannot occur (log 3). -/
def execShortRequestDiscard (src : Byte) (payload : List Byte) (s : State) : Host.Outcome State Fault Refusal :=
  finish (if payload.length < 2 then whenTaken { src := src, payload := payload } id else id) s

/-- UNKNOWN_REQUEST (R60, R130, R183): a request that no other row takes (log 15); for any other request the command
cannot occur (log 3). -/
def execUnknownRequest (q : Sender) (code : Byte) (body : List Byte) (s : State) :
    Host.Outcome State Fault Refusal :=
  finish (if decodeCode q code body = .unknownRequest q code body then
    whenTaken { src := q.src, payload := q.tag :: code :: body }
      (serve q code.toNat .write (unknownForm code body) (ownUnknown code body)) else id) s

/-- READ_ID (R184). -/
def execReadId (q : Sender) (body : List Byte) (s : State) : Host.Outcome State Fault Refusal :=
  finish (whenTaken (mgmtRequest q codeReadId body) (serve q codeReadId .read (decide (body = [])) ownReadId)) s

/-- TABLE_WRITE (R186). -/
def execTableWrite (q : Sender) (body : List Byte) (s : State) : Host.Outcome State Fault Refusal :=
  finish (whenTaken (mgmtRequest q codeTableWrite body) (serveTableWrite q body)) s

/-- TABLE_READ (R186). -/
def execTableRead (q : Sender) (body : List Byte) (s : State) : Host.Outcome State Fault Refusal :=
  finish (whenTaken (mgmtRequest q codeTableRead body) (serveTableRead q body)) s

/-- BIND_RECIPE (R61). -/
def execBindRecipe (q : Sender) (st arg : Byte) (s : State) : Host.Outcome State Fault Refusal :=
  finish (whenTaken (stationRequest q st cmdBindRecipe arg) (serveStation q st (ownBind arg))) s

/-- WAKE (R62). -/
def execWake (q : Sender) (st arg : Byte) (s : State) : Host.Outcome State Fault Refusal :=
  finish (whenTaken (stationRequest q st cmdWake arg) (serveStation q st ownWake)) s

/-- STANDBY (R64). -/
def execStandby (q : Sender) (st arg : Byte) (s : State) : Host.Outcome State Fault Refusal :=
  finish (whenTaken (stationRequest q st cmdStandby arg) (serveStation q st ownStandby)) s

/-- OFF (R64). -/
def execOff (q : Sender) (st arg : Byte) (s : State) : Host.Outcome State Fault Refusal :=
  finish (whenTaken (stationRequest q st cmdOff arg) (serveStation q st ownOff)) s

/-- PRODUCE (R65). -/
def execProduce (q : Sender) (st arg : Byte) (s : State) : Host.Outcome State Fault Refusal :=
  finish (whenTaken (stationRequest q st cmdProduce arg) (serveStation q st ownProduce)) s

/-- STOP (R65). -/
def execStop (q : Sender) (st arg : Byte) (s : State) : Host.Outcome State Fault Refusal :=
  finish (whenTaken (stationRequest q st cmdStop arg) (serveStation q st ownStop)) s

/-- ABORT_CYCLE (R83). -/
def execAbortCycle (q : Sender) (st arg : Byte) (s : State) : Host.Outcome State Fault Refusal :=
  finish (whenTaken (stationRequest q st cmdAbortCycle arg) (serveStation q st ownAbort)) s

/-- ZONE_RECOVER (R104). -/
def execZoneRecover (q : Sender) (st arg : Byte) (s : State) : Host.Outcome State Fault Refusal :=
  finish (whenTaken (stationRequest q st cmdZoneRecover arg) (serveStation q st (ownZoneRecover arg))) s

/-- DEMOULD_RELEASE (R163). -/
def execDemouldRelease (q : Sender) (st arg : Byte) (s : State) : Host.Outcome State Fault Refusal :=
  finish (whenTaken (stationRequest q st cmdDemouldRelease arg) (serveStation q st ownRelease)) s

/-- DEMOULD_RESET (R164). -/
def execDemouldReset (q : Sender) (st arg : Byte) (s : State) : Host.Outcome State Fault Refusal :=
  finish (whenTaken (stationRequest q st cmdDemouldReset arg) (serveStation q st ownDemouldReset)) s

/-- TARE (R131). -/
def execTare (q : Sender) (st : Byte) (s : State) : Host.Outcome State Fault Refusal :=
  finish (whenTaken (scaleRequest q cmdTare st) (serve q codeScale .write true ownTare)) s

/-- ZERO (R132). -/
def execZero (q : Sender) (st : Byte) (s : State) : Host.Outcome State Fault Refusal :=
  finish (whenTaken (scaleRequest q cmdZero st) (serve q codeScale .write true ownZero)) s

/-- CANCEL (R133). -/
def execCancel (q : Sender) (st : Byte) (s : State) : Host.Outcome State Fault Refusal :=
  finish (whenTaken (scaleRequest q cmdCancel st) (serve q codeScale .write true (ownCancel st))) s

/-- READ_STATUS (R185). -/
def execReadStatus (q : Sender) (body : List Byte) (s : State) : Host.Outcome State Fault Refusal :=
  finish (whenTaken (mgmtRequest q codeReadStatus body) (serve q codeReadStatus .read (statusForm body) (ownReadStatus body))) s

/-- READ_COUNTERS (R20). -/
def execReadCounters (q : Sender) (s : State) : Host.Outcome State Fault Refusal :=
  finish (whenTaken (mgmtRequest q codeReadCounters [0]) (serve q codeReadCounters .read true ownReadCounters)) s

/-- READ_COUNTERS_CLEAR (R20). -/
def execReadCountersClear (q : Sender) (s : State) : Host.Outcome State Fault Refusal :=
  finish (whenTaken (mgmtRequest q codeReadCounters [1]) (serve q codeReadCounters .write true ownClearCounters)) s

/-- READ_CONDITIONS (R188). -/
def execReadConditions (q : Sender) (body : List Byte) (s : State) : Host.Outcome State Fault Refusal :=
  finish (whenTaken (mgmtRequest q codeReadConditions body) (serve q codeReadConditions .read (decide (body = [])) ownReadConditions)) s

/-- CLEAR_CONDITIONS (R188). -/
def execClearConditions (q : Sender) (body : List Byte) (s : State) : Host.Outcome State Fault Refusal :=
  finish (whenTaken (mgmtRequest q codeClearConditions body) (serve q codeClearConditions .write (clearForm body) (ownClearConditions body))) s

/-- SET_MASK (R188). -/
def execSetMask (q : Sender) (body : List Byte) (s : State) : Host.Outcome State Fault Refusal :=
  finish (whenTaken (mgmtRequest q codeSetMask body) (serve q codeSetMask .write (decide (body.length = 3)) (ownSetMask body))) s

/-- FORCE_CONDITION (R188). -/
def execForceCondition (q : Sender) (body : List Byte) (s : State) : Host.Outcome State Fault Refusal :=
  finish (whenTaken (mgmtRequest q codeForceCondition body) (serve q codeForceCondition .write (decide (body.length = 1)) (ownForce body))) s

/-- SET_RECORD_BASE (R171). -/
def execSetRecordBase (q : Sender) (body : List Byte) (s : State) : Host.Outcome State Fault Refusal :=
  finish (whenTaken (mgmtRequest q codeSetRecordBase body) (serve q codeSetRecordBase .write (decide (body.length = 4)) (ownSetBase body))) s

/-- SET_TIME (R172). -/
def execSetTime (q : Sender) (body : List Byte) (s : State) : Host.Outcome State Fault Refusal :=
  finish (whenTaken (mgmtRequest q codeSetTime body) (serve q codeSetTime .write (decide (body.length = 6)) (ownSetTime body))) s

/-- HISTORY_SUMMARY (R180). -/
def execHistorySummary (q : Sender) (body : List Byte) (s : State) : Host.Outcome State Fault Refusal :=
  finish (whenTaken (mgmtRequest q codeHistorySummary body) (serve q codeHistorySummary .read (decide (body = [])) ownSummary)) s

/-- COLLECT (R176). -/
def execCollect (q : Sender) (body : List Byte) (s : State) : Host.Outcome State Fault Refusal :=
  finish (whenTaken (mgmtRequest q codeCollect body) (serveCollect q body)) s

/-- RELEASE (R179). -/
def execRelease (q : Sender) (body : List Byte) (s : State) : Host.Outcome State Fault Refusal :=
  finish (whenTaken (mgmtRequest q codeRelease body) (serve q codeRelease .write (decide (body.length = 4)) (ownReleaseRecords body))) s

/-- STORE_IMAGE (R191). -/
def execStoreImage (q : Sender) (body : List Byte) (s : State) : Host.Outcome State Fault Refusal :=
  finish (whenTaken (mgmtRequest q codeStoreImage body) (serve q codeStoreImage .write (decide (body = [])) ownStoreImage)) s

/-- RESTART (R192). -/
def execRestart (q : Sender) (s : State) : Host.Outcome State Fault Refusal :=
  finish (whenTaken (mgmtRequest q codeRestart [0]) (serve q codeRestart .write true (ownRestart false))) s

/-- RESTART with FORCE (R192). -/
def execRestartForce (q : Sender) (s : State) : Host.Outcome State Fault Refusal :=
  finish (whenTaken (mgmtRequest q codeRestart [1]) (serve q codeRestart .write true (ownRestart true))) s

end Sys2Proof.Machine
end

