-- ==== Sys2Proof/Machine/Dispatch.lean ====
section
/-! DEFINITION. The dispatch of commands: one arm per constructor of `Instr`, each a direct call of its meaning. -/

namespace Sys2Proof.Machine

open Sys2Proof

/-- What a command does to the state, but for the queue of waiting commands. -/
def exec (i : Instr) (s : State) : Host.Outcome State Fault Refusal :=
  match i with
  | .powerOn => Sys2Proof.Machine.execPowerOn s
  | .linkSignalPresent p valid => Sys2Proof.Machine.execLinkSignalPresent p valid s
  | .linkTrainingDisturbed p d => Sys2Proof.Machine.execLinkTrainingDisturbed p d s
  | .linkCleanTimeExpiry p => Sys2Proof.Machine.execLinkCleanTimeExpiry p s
  | .linkTrainingSignalLoss p => Sys2Proof.Machine.execLinkTrainingSignalLoss p s
  | .linkLoss p signal => Sys2Proof.Machine.execLinkLoss p signal s
  | .frameReceived f => Sys2Proof.Machine.execFrameReceived f s
  | .frameTransmitComplete => Sys2Proof.Machine.execFrameTransmitComplete s
  | .eventFrameJoin => Sys2Proof.Machine.execEventFrameJoin s
  | .partFrameJoin => Sys2Proof.Machine.execPartFrameJoin s
  | .sampleEntryStale k => Sys2Proof.Machine.execSampleEntryStale k s
  | .shortRequestDiscard src payload => Sys2Proof.Machine.execShortRequestDiscard src payload s
  | .unknownRequest q code body => Sys2Proof.Machine.execUnknownRequest q code body s
  | .readId q body => Sys2Proof.Machine.execReadId q body s
  | .tableWrite q body => Sys2Proof.Machine.execTableWrite q body s
  | .tableRead q body => Sys2Proof.Machine.execTableRead q body s
  | .bindRecipe q station arg => Sys2Proof.Machine.execBindRecipe q station arg s
  | .wake q station arg => Sys2Proof.Machine.execWake q station arg s
  | .standby q station arg => Sys2Proof.Machine.execStandby q station arg s
  | .off q station arg => Sys2Proof.Machine.execOff q station arg s
  | .produce q station arg => Sys2Proof.Machine.execProduce q station arg s
  | .stop q station arg => Sys2Proof.Machine.execStop q station arg s
  | .abortCycle q station arg => Sys2Proof.Machine.execAbortCycle q station arg s
  | .zoneRecover q station arg => Sys2Proof.Machine.execZoneRecover q station arg s
  | .demouldRelease q station arg => Sys2Proof.Machine.execDemouldRelease q station arg s
  | .demouldReset q station arg => Sys2Proof.Machine.execDemouldReset q station arg s
  | .tare q station => Sys2Proof.Machine.execTare q station s
  | .zero q station => Sys2Proof.Machine.execZero q station s
  | .cancel q station => Sys2Proof.Machine.execCancel q station s
  | .readStatus q body => Sys2Proof.Machine.execReadStatus q body s
  | .readCounters q => Sys2Proof.Machine.execReadCounters q s
  | .readCountersClear q => Sys2Proof.Machine.execReadCountersClear q s
  | .readConditions q body => Sys2Proof.Machine.execReadConditions q body s
  | .clearConditions q body => Sys2Proof.Machine.execClearConditions q body s
  | .setMask q body => Sys2Proof.Machine.execSetMask q body s
  | .forceCondition q body => Sys2Proof.Machine.execForceCondition q body s
  | .setRecordBase q body => Sys2Proof.Machine.execSetRecordBase q body s
  | .setTime q body => Sys2Proof.Machine.execSetTime q body s
  | .historySummary q body => Sys2Proof.Machine.execHistorySummary q body s
  | .collect q body => Sys2Proof.Machine.execCollect q body s
  | .release q body => Sys2Proof.Machine.execRelease q body s
  | .storeImage q body => Sys2Proof.Machine.execStoreImage q body s
  | .restart q => Sys2Proof.Machine.execRestart q s
  | .restartForce q => Sys2Proof.Machine.execRestartForce q s
  | .imageLoadComplete answers => Sys2Proof.Machine.execImageLoadComplete answers s
  | .imageStoreEnd completed => Sys2Proof.Machine.execImageStoreEnd completed s
  | .settleTimerExpiry st => Sys2Proof.Machine.execSettleTimerExpiry st s
  | .cureAccrualComplete st => Sys2Proof.Machine.execCureAccrualComplete st s
  | .maximumCureTimeExpiry st => Sys2Proof.Machine.execMaximumCureTimeExpiry st s
  | .outOfBandAllowanceExceeded st => Sys2Proof.Machine.execOutOfBandAllowanceExceeded st s
  | .permitRefreshExpiry st => Sys2Proof.Machine.execPermitRefreshExpiry st s
  | .regulationEvent z => Sys2Proof.Machine.execRegulationEvent z s
  | .blindHoldExpiry z => Sys2Proof.Machine.execBlindHoldExpiry z s
  | .budgetPeriodExpiry => Sys2Proof.Machine.execBudgetPeriodExpiry s
  | .stableDwellExpiry => Sys2Proof.Machine.execStableDwellExpiry s
  | .loadingTimerExpiry => Sys2Proof.Machine.execLoadingTimerExpiry s
  | .stepTimerExpiry st => Sys2Proof.Machine.execStepTimerExpiry st s
  | .dwellTimerExpiry st => Sys2Proof.Machine.execDwellTimerExpiry st s

end Sys2Proof.Machine
end

