-- ==== Sys2Proof/Machine/Step.lean ====
section
/-! DEFINITION. One step of the machine, and the host's way of putting a command in front. -/

namespace Sys2Proof.Machine

open Sys2Proof

/-- One step: the command at the front of the queue is run with the queue's rest. With no command waiting, the event
that is due happens, and when none is due one millisecond passes (DESIGN CHOICE, log 1). -/
def step (s : State) : Host.Outcome State Fault Refusal := match s.pending with
  | c :: rest => exec c { s with pending := rest }
  | [] => match dueCommand s.toBlock with
    | some c => exec c s
    | none => .next { s with toBlock := tick s.toBlock }

/-- The state with the command a word spells put at the front of the queue; unchanged where the word spells none. -/
def State.withFetchWord (s : State) (nbits w : Nat) : State := match decodeTableWord nbits w with
  | some c => { s with pending := c :: s.pending }
  | none => s

end Sys2Proof.Machine
end

