-- ==== Sys2Proof/Safety.lean ====
section
/-! DEFINITION. What counts as a safe run, in the terms the statements use: how a command ends, what is judged of a
request before its owner sees it, the capacities no queue passes, the condition that keeps the control queue within its
places, and what a record may become. -/

namespace Sys2Proof.Machine

open Sys2Proof

/-! ### How a command ends -/

/-- The state a command leaves when its effect brings the blocks to `b`: the OUT arbiter has taken the decision that was
due after the last event of the command (R11, log 5), and the commands waiting are the same. -/
def State.closing (s : State) (b : Block) : State := { toBlock := arbitrate b, pending := s.pending }

/-! ### Requests before their owner (R183, R184) -/

/-- What checks 2 to 4 of R183 judge a request by, and the body of a reply that refuses it. -/
structure Judged where
  sender : Sender
  code : Nat
  cls : RequestClass
  form : Bool
  refusal : List Byte
  deriving DecidableEq, Repr

/-- A request whose refusal carries no body. -/
def judgedAs (q : Sender) (code : Nat) (cls : RequestClass) (form : Bool) : Judged :=
  { sender := q, code := code, cls := cls, form := form, refusal := [] }

/-- The form of a TABLE_WRITE or TABLE_READ, given the test of its table. -/
def tableForm (test : TableId → Bool) (body : List Byte) : Bool := match tableOf (field body 0 1) with
  | some t => test t
  | none => false

/-- What each request is judged by (R184). A short request and the commands that are no requests are not judged. -/
def judgedOf : Instr → Option Judged
  | .unknownRequest q code body => some (judgedAs q code.toNat .write (unknownForm code body))
  | .readId q body => some (judgedAs q codeReadId .read (decide (body = [])))
  | .tableWrite q body =>
    some { sender := q, code := codeTableWrite, cls := .write
           form := tableForm (fun t => writeForm t body) body, refusal := [0] }
  | .tableRead q body => some (judgedAs q codeTableRead .read (tableForm (fun t => readForm t body) body))
  | .bindRecipe q _ _ | .wake q _ _ | .standby q _ _ | .off q _ _ | .produce q _ _ | .stop q _ _
  | .abortCycle q _ _ | .zoneRecover q _ _ | .demouldRelease q _ _ | .demouldReset q _ _ =>
    some (judgedAs q codeStation .write true)
  | .tare q _ | .zero q _ | .cancel q _ => some (judgedAs q codeScale .write true)
  | .readStatus q body => some (judgedAs q codeReadStatus .read (statusForm body))
  | .readCounters q => some (judgedAs q codeReadCounters .read true)
  | .readCountersClear q => some (judgedAs q codeReadCounters .write true)
  | .readConditions q body => some (judgedAs q codeReadConditions .read (decide (body = [])))
  | .clearConditions q body => some (judgedAs q codeClearConditions .write (clearForm body))
  | .setMask q body => some (judgedAs q codeSetMask .write (decide (body.length = 3)))
  | .forceCondition q body => some (judgedAs q codeForceCondition .write (decide (body.length = 1)))
  | .setRecordBase q body => some (judgedAs q codeSetRecordBase .write (decide (body.length = 4)))
  | .setTime q body => some (judgedAs q codeSetTime .write (decide (body.length = 6)))
  | .historySummary q body => some (judgedAs q codeHistorySummary .read (decide (body = [])))
  | .collect q body => some (judgedAs q codeCollect .write (decide (body.length = 1)))
  | .release q body => some (judgedAs q codeRelease .write (decide (body.length = 4)))
  | .storeImage q body => some (judgedAs q codeStoreImage .write (decide (body = [])))
  | .restart q | .restartForce q => some (judgedAs q codeRestart .write true)
  | .shortRequestDiscard _ _ | .powerOn | .linkSignalPresent _ _ | .linkTrainingDisturbed _ _
  | .linkCleanTimeExpiry _ | .linkTrainingSignalLoss _ | .linkLoss _ _ | .frameReceived _ | .frameTransmitComplete
  | .eventFrameJoin | .partFrameJoin | .sampleEntryStale _ | .imageLoadComplete _ | .imageStoreEnd _
  | .settleTimerExpiry _ | .cureAccrualComplete _ | .maximumCureTimeExpiry _ | .outOfBandAllowanceExceeded _
  | .permitRefreshExpiry _ | .regulationEvent _ | .blindHoldExpiry _ | .budgetPeriodExpiry | .stableDwellExpiry
  | .loadingTimerExpiry | .stepTimerExpiry _ | .dwellTimerExpiry _ => none

/-- A request command names a table identifier above 5 (R183, check 3). -/
def namesNoTable : Instr → Bool
  | .tableWrite _ body | .tableRead _ body => tableUnknown body
  | _ => false

/-- The commands that reset the part (R190, R192). -/
def isReset : Instr → Bool
  | .powerOn | .restart _ | .restartForce _ => true
  | _ => false

/-! ### Capacities (R9, R11, R17, R19, R182) -/

/-- Every port counter is within 16 bits (R19). -/
abbrev countersFit (c : Counters) : Prop :=
  c.crcErr ≤ 65535 ∧ c.returned ≤ 65535 ∧ c.hopExpired ≤ 65535 ∧ c.wrongKind ≤ 65535 ∧ c.fwdDrop ≤ 65535 ∧
    c.disconnect ≤ 65535 ∧ c.reqDrop ≤ 65535 ∧ c.rxFrames ≤ 65535 ∧ c.txFrames ≤ 65535

/-- No queue holds more than its capacity, the consecutive-forward count is at most 4, the counters fit. -/
abbrev queuesFit (s : Block) : Prop :=
  s.rpu.forwardQ.length ≤ 4 ∧ s.rpu.infoQ.length ≤ 16 ∧ s.mga.requests.length ≤ 4 ∧ s.rpu.forwardCount ≤ 4 ∧
    countersFit s.rpu.counters

/-! ### Cycles and the control queue (R12 to R16, R59, R84, R87) -/

/-- A station's permits, cycle context and sequencer agree with its state: CLOSE_OK exactly in PRESS_LOAD while
heat-ready, OPEN_OK exactly in OPENING (R84), a cycle context exactly in a cycle state (R59), and a sequencer that is
neither IDLE nor DONE in DEMOULDING or HELD alone (R78 to R81). -/
def cycleSound (s : Block) : Prop :=
  ∀ st, (stcOf s st).closeOk = (decide ((stcOf s st).state = .pressLoad) && (stcOf s st).heatReady) ∧
    (stcOf s st).openOk = decide ((stcOf s st).state = .opening) ∧
    (stcOf s st).cycle.isSome = isCycleState (stcOf s st).state ∧
    ((dmsOf s st).state = .idle ∨ (dmsOf s st).state = .done ∨ (stcOf s st).state = .demoulding ∨
      (stcOf s st).state = .held)

/-- What bounds the control queue (R12 to R16): DRIVE frames for at most six nodes, each once; one PERMIT and one STROKE
for a station; two WEIGH frames; the Zone Table passes the checks of R46; a zone that is not enabled is DISABLED, without
a timer and without a grant (R87). -/
def controlSound (s : Block) : Prop :=
  (s.rpu.controlQ.filterMap driveNodeOf).Nodup ∧ (s.rpu.controlQ.filterMap driveNodeOf).length ≤ 6 ∧
    (∀ st, (s.rpu.controlQ.filter (isPermitOf st)).length ≤ 1 ∧ (s.rpu.controlQ.filter (isStrokeOf st)).length ≤ 1) ∧
    (s.rpu.controlQ.filter isWeigh).length ≤ 2 ∧ zoneTableOk s.tab.zones = true ∧
    (∀ z, (entryOf s z).enabled = false → (zoneOf s z).state = .disabled ∧ (zoneOf s z).timer = none ∧
      (zoneOf s z).blindHold = none ∧ (zoneOf s z).g = 0)

/-! ### Records (R169, R174, R175) -/

/-- Every flag set in `a` is set in `b`. -/
abbrev flagsKept (a b : BitVec 16) : Prop := a &&& b = a

/-- What a slot that held `old` may hold after one command that is no reset: an OPEN record is still held, OPEN or
CLOSED, under its number and with every flag it had (R174); a CLOSED record is held unchanged, CLOSED or SENT (R169,
R175); a SENT record is held unchanged, unless a RELEASE of its number or a greater one was taken, which frees the slot, and a
cycle that opens in that event may take it (R68, R179). -/
def slotKept (c : Instr) (old new : HistorySlot) : Prop := match old with
  | .free => True
  | .held .opened r => ∃ r', (new = .held .opened r' ∨ new = .held .closed r') ∧ r'.number = r.number ∧
      r'.station = r.station ∧ flagsKept r.flags r'.flags
  | .held .closed r => new = .held .closed r ∨ new = .held .sent r
  | .held .sent r => new = .held .sent r ∨
      ((∃ q body, c = .release q body ∧ r.number ≤ field body 0 4) ∧ (new = .free ∨ ∃ r', new = .held .opened r'))

/-! ### What statements about a command assume and conclude -/

/-- A write-class request reaches its owner: `s1` is the state at its take (R182), the image is not LOADING and the
source is admitted (R183). -/
def admitted (r : Request) (s s1 : Block) : Prop :=
  takeRequest r s = some s1 ∧ s1.mga.image ≠ .loading ∧ masterAdmits s1 r.src = true

/-- A request command ends with this reply, posted in the state `b` that its effect leaves. -/
def answered (c : Instr) (s : State) (q : Sender) (code : Nat) (st : Status) (body : List Byte) (b : Block) : Prop :=
  exec c s = .next (s.closing (reply q code st body b))

/-- No enabled zone of the station is in band, so that no move of a target can be reported (R106). -/
def noBand (s : Block) (st : Station) : Prop := ∀ z ∈ zonesOf s st, (zoneOf s z).inBand = false

/-- Every in-band zone of the station was judged at the target it has now, so that no target is left to move (R106). -/
def targetsHeld (s : Block) (st : Station) : Prop :=
  ∀ z ∈ zonesOf s st, (zoneOf s z).inBand = true → zoneTarget s z = (zoneOf s z).lastTarget

/-- Every in-band zone of the station was judged at the target it has once the station's cycle is gone, so that the close
of the cycle leaves no target to move (R58, R106). -/
def boundHeld (s : Block) (st : Station) : Prop := targetsHeld (modStc st (fun c => { c with cycle := none }) s) st

/-- The record of number `n` is OPEN in slot `i`, and no other slot holds that number. -/
def openIn (s : Block) (i : Fin 48) (n : Nat) (r : Record) : Prop :=
  vget s.hst.slots i = .held .opened r ∧ r.number = n ∧ ∀ j, j ≠ i → slotNumber (vget s.hst.slots j) ≠ n

/-- The blocks with this record OPEN in slot `i`, and nothing else changed (R174). -/
def writes (i : Fin 48) (r : Record) (s : Block) : Block :=
  { s with hst := { s.hst with slots := vset s.hst.slots i (.held .opened r) } }

/-- A record with its demould part, where present, changed (R166). -/
def Record.demoulded (f : DemouldPart → DemouldPart) (r : Record) : Record := { r with demould := r.demould.map f }

/-! ### Orders and halts of a sequencer (R15, R148, R161) -/

/-- The stop order (R23). -/
def stopOrder : StrokeOrder := { mask := 0, target := 0, ceiling := 1, speed := 0 }

/-- A STROKE order stands in the control queue in place of the order held for the station, else at the back; while OUT is
not UP it is discarded (R4, R15). -/
def stroked (st : Station) (o : StrokeOrder) (s : Block) : Block :=
  let q := s.rpu.controlQ
  { s with rpu := { s.rpu with
      controlQ := if s.rpu.outPort.link = .up then
          replaceOrJoin (isStrokeOf st) (.stroke st (s.tab.stations.get st).ejectorNode o) q
        else q } }

/-- A motion order is posted and in force, its step timer started (R148, R152). -/
def ordered (st : Station) (o : StrokeOrder) (timeout : Nat) (s : Block) : Block :=
  modDms st (fun d => { d with order := some o, stepTimer := some { elapsed := 0, length := timeout } }) (stroked st o s)

/-- A stop order is posted; no order is in force and no step timer runs (R148). -/
def stopped (st : Station) (s : Block) : Block :=
  modDms st (fun d => { d with order := none, stepTimer := none }) (stroked st stopOrder s)

/-- An entry into HALTED but for the record's stuck mask union (R80, R161): the stop order, no timer running, cause, stuck
mask and resume action, the probe left unless it is what resumes, the station HELD and STATION_HELD present. -/
def haltedAt (st : Station) (cause : HaltCause) (stuck : BitVec 8) (resume : Resume) (s : Block) : Block :=
  setLevel (.stationHeld st) true
    (modStc st (fun c => { c with state := .held })
      (modDms st (fun d =>
        { d with
          state := .halted, cause := cause, stuck := stuck, resume := resume, dwellTimer := none
          scanFollows := d.scanFollows && decide (resume = .probe)
          probeGroup := if resume = .probe then d.probeGroup else none
          probePhase := if resume = .probe then d.probePhase else .none })
        (stopped st s)))

/-- A step issued with a mask (R148, R149): with both ejector signals FRESH the sequencer is STROKING under its order, the
retract position taken where it was not; else it halts with SENSOR and the resume action step. -/
def issued (st : Station) (p : StepCopy) (mask : BitVec 8) (s : Block) : Block :=
  if issueOk s st = true then
    ordered st { mask := mask, target := p.target, ceiling := p.ceiling, speed := p.speed } p.timeout
      (modDms st (fun d =>
        { d with state := .stroking, retractPos := some (d.retractPos.getD (ejectPos s st).toNat) }) s)
  else haltedAt st .sensor 0 .step s

/-- The homing order of all groups to position 0, with the last step's figures (R148, R165). -/
def homed (st : Station) (p : StepCopy) (s : Block) : Block :=
  if issueOk s st = true then
    ordered st { mask := 255, target := 0, ceiling := p.ceiling, speed := p.speed } p.timeout
      (modDms st (fun d => { d with state := .homing }) s)
  else haltedAt st .sensor 0 .homing s

/-- A move of the probe of group `g`, outward or back, to a target under a force ceiling (R148, R157, R158). -/
def probed (st : Station) (p : StepCopy) (g : Nat) (phase : ProbePhase) (target ceiling : Nat) (s : Block) : Block :=
  let x := modDms st (fun d => { d with state := .probing, probeGroup := some g, probePhase := phase }) s
  if issueOk s st = true then
    ordered st { mask := 1#8 <<< g, target := target, ceiling := ceiling, speed := p.speed } p.timeout x
  else haltedAt st .sensor 0 .probe x

/-- PAUSED by HOLD with a resume action: no order is in force and no timer runs (R160). -/
def pausedAt (st : Station) (resume : Resume) (s : Block) : Block :=
  modDms st (fun d =>
    { d with state := .paused, resume := resume, order := none, stepTimer := none, dwellTimer := none }) s

/-- The step boundary after step `n` of a list whose last step is `last` (R154, R160, R162): the next step with its own mask
and no retries, else homing; a pending abort halts there, HOLD pauses there. -/
def passed (st : Station) (steps : List StepCopy) (last : StepCopy) (n : Nat) (s : Block) : Block :=
  let x : Block := match steps[n]? with
    | some p => modDms st (fun d => { d with stepPos := n + 1, mask := p.mask, retries := 0 }) s
    | none => s
  let resume : Resume := if (steps[n]?).isSome = true then .step else .homing
  if (dmsOf s st).abortPending = true then
    haltedAt st .abort 0 resume (modDms st (fun d => { d with abortPending := false }) x)
  else if heldOf s (.stationSignal st .hold) = 1 then pausedAt st resume x
  else match steps[n]? with
    | some p => issued st p p.mask x
    | none => homed st last x

/-! ### Evaluations in LOADING (R138) -/

/-- The NEAR_TARGET and stable dwell tests of a session in LOADING: the notice at its threshold, once an attempt; the dwell
runs while the scale is stable, loaded above the empty limit and not overloaded. -/
def evaluated (u : Session) (x : Block) : Block :=
  let net := filteredNet x
  let near := !u.nearSent && decide (((u.target * u.early / 1000 : Nat) : Int) ≤ net)
  let run := x.scu.stable && decide ((x.tab.line.emptyLimit : Int) < net) && !x.scu.overload
  let y := if near = true then
      postWeigh { station := u.owner, notice := .nearTarget, attempt := u.attempts, cause := .none, weight := net } x
    else x
  { y with scu := { x.scu with
    session := some { u with nearSent := u.nearSent || near }
    dwell := if run = true then (match x.scu.dwell with
        | some d => some d
        | none => some { elapsed := 0, length := (x.tab.line.dwellCode + 1) * 100 })
      else none } }

/-! ### Attempts and grants (R134 to R137) -/

/-- An attempt of session `u` begun, with its owner's record `w` OPEN in slot `j`: LOADING, one more attempt, its charge part
PENDING, the loading timer started, and the evaluation of LOADING (R137, R138). -/
def attemptBegun (u : Session) (j : Fin 48) (w : Record) (x : Block) : Block :=
  let part : ChargePart := { attempts := u.attempts + 1, status := .pending, weight := 0
                             wait := (w.charge.map (·.wait)).getD 0 }
  evaluated { u with state := .loading, attempts := u.attempts + 1, nearSent := false }
    (writes j { w with charge := some part } { x with scu := { x.scu with
      loading := some { elapsed := 0, length := x.tab.line.maxLoading * 1000 } } })

/-- The oldest claim, that of station `o` in cycle `cy` with record `w` OPEN in slot `j`, granted on a scale without a
session (R134 to R137): an empty scale begins the first attempt at once; a settled loaded one is asked to be cleared; any
other leaves the session in CLEARING. -/
def granted (o : Station) (cy : Cycle) (j : Fin 48) (w : Record) (x : Block) : Block :=
  let u : Session :=
    { owner := o, state := .clearing, attempts := 0, target := cy.recipe.target, tolLow := cy.recipe.tolLow
      tolHigh := cy.recipe.tolHigh, early := cy.recipe.early, maxAttempts := cy.recipe.maxAttempts
      nearSent := false, clearSent := false }
  let settled := x.scu.stable = true
  let y : Block := { x with scu := { x.scu with claims := x.scu.claims.tail } }
  if settled ∧ filteredNet x ≤ x.tab.line.emptyLimit then attemptBegun u j w y
  else if settled then
    { postWeigh { station := o, notice := .clearScale, attempt := 0, cause := .none, weight := filteredNet x } y with
      scu := { y.scu with session := some { u with clearSent := true } } }
  else { y with scu := { y.scu with session := some u } }

/-! ### A cycle that opens (R57, R69, R70, R134, R173, R181) -/

/-- A cycle of the station opened on recipe `k` and its step list, with number `n` in slot `i`: the record OPEN, HISTORY_FULL
judged, NO_CYCLE ended, the station CHARGING on its snapshot with every count 0, its claim at the back of the queue. -/
def cycleOpened (st : Station) (k : Fin 16) (steps : List StepCopy) (i : Fin 48) (n : Nat) (s : Block) : Block :=
  let r := vget s.tab.recipes k
  let record : Record :=
    { number := n, station := st, recipeIndex := k, revision := r.revision, verdict := .good, flags := 0
      openedAt := s.hst.lineTime, closedAt := none, charge := none, weighedAt := none, cure := none, demould := none }
  let slots := vset s.hst.slots i (.held .opened record)
  let x := setLevel .historyFull (decide (∀ j, vget slots j ≠ .free)) (setLevel (.noCycle st) false s)
  modStc st (fun c => { c with
      state := .charging, noCycle := .none
      cycle := some { record := n, recipeIndex := k, recipe := r, steps := steps, waitRunning := false, chargeWait := 0
                      accruing := false, accrued := 0, accrualUp := false, outCounting := false, outOfBand := 0
                      elapsedRunning := false, elapsed := 0, peakTonnage := 0 } })
    { x with
      hst := { s.hst with slots := slots, order := s.hst.order ++ [i]
                          counter := some (if n = 4294967295 then 1 else n + 1) }
      scu := { s.scu with claims := s.scu.claims ++ [st] } }

/-! ### A cycle that closes (R71, R73, R82 to R84, R175) -/

/-- The record of a cycle that ends as ABORTED: flagged, and where its attempt is cut the charge part CANCELLED with weight
0 (R71, R83, R133). -/
def Record.aborted (cut : Bool) (r : Record) : Record :=
  { r with
    flags := r.flags ||| 1
    charge := if cut = true then r.charge.map fun p => { p with status := .cancelled, weight := 0 } else r.charge }

/-- Cycle `cy` of the station closed with record `r` in slot `i`, before the cycle-open test that ends the close: a charge
wait still running written, the record CLOSED with its verdict and closing time, HISTORY_HIGH judged, CYCLE_CLOSED latched,
the accepted charge none, the permits clear, and the station READY with heat-ready, else PREHEAT, its settle timer started
where all its zones are in band (R66, R73, R82, R141, R175, R181). -/
def cycleClosed (st : Station) (cy : Cycle) (i : Fin 48) (r : Record) (s : Block) : Block :=
  let slots := vset s.hst.slots i (.held .closed { r with
    verdict := verdictOf r.flags, closedAt := s.hst.lineTime
    charge := if cy.waitRunning = true then r.charge.map fun p => { p with wait := cy.chargeWait } else r.charge })
  let held := (allSlots.filter fun j => isCollectable (vget slots j)).length
  let x := setLevel .historyHigh (decide (s.tab.line.watermark ≤ held)) s
  modStc st (fun c => { c with
      state := if c.heatReady = true then .ready else .preheat
      cycle := none, closeOk := false, openOk := false
      settle := if c.heatReady = false ∧ c.settle = none ∧ allInBand s st = true then
          c.bound.map fun k => { elapsed := 0, length := (vget s.tab.recipes k).settle * 1000 }
        else c.settle })
    { x with
      hst := { s.hst with slots := slots }
      scu := { s.scu with accepted := s.scu.accepted.set st none }
      cdu := { x.cdu with latched := x.cdu.latched ||| (1#23 <<< (5 * stationNum st + 1)) } }

/-- A station in CHARGING or PRESS_LOAD in cycle `cy`, with record `r` OPEN in slot `i`. -/
def mayClose (st : Station) (cy : Cycle) (i : Fin 48) (r : Record) (s : Block) : Prop :=
  (stcOf s st).cycle = some cy ∧ openIn s i cy.record r ∧
    ((stcOf s st).state = .charging ∨ (stcOf s st).state = .pressLoad)

/-- The close of cycle `cy` opens no other cycle, leaves no target to move and changes the record number of the PERMIT. -/
def staysClosed (st : Station) (cy : Cycle) (s : Block) : Prop :=
  cy.record ≠ 0 ∧ boundHeld s st ∧ ((stcOf s st).production = false ∨ (stcOf s st).heatReady = false)

/-- The DISCARD notice that an end of the cycle from PRESS_LOAD posts for the accepted charge (R144). -/
def discarded (st : Station) (s : Block) : Block := match (stcOf s st).state, s.scu.accepted.get st with
  | .pressLoad, some a =>
    postWeigh { station := st, notice := .discard, attempt := a.attempts, cause := .none, weight := a.weight } s
  | _, _ => s

/-! ### Sessions and claims that end (R133, R135) -/

/-- A session whose attempt has begun and is not accepted: its end marks the charge part CANCELLED (R133). -/
def isAttempt (u : Session) : Bool := decide (u.state = .loading ∨ u.state = .settling ∨ u.state = .rejected)

/-- The scale without a session (R135, R140), and so without a stable dwell (log 43). -/
def sessionless (u : Scu) : Scu := { u with session := none, dwell := none, loading := none }

/-- The scale without a station's claim (R133, R135). -/
def unclaimed (st : Station) (u : Scu) : Scu := { u with claims := u.claims.filter fun x => decide (x ≠ st) }

/-! ### Tables that pass their checks (R28, R29, R43, R45, R46, R48, R50, R53, R54) -/

/-- Every entry is in range, the Zone Table passes checks 2 and 3 of R46, and no Sample Map entry repeats a key or a target
(R28). -/
def tablesSound (t : Tables) : Prop :=
  (∀ z, zoneInRange (vget t.zones z) = true) ∧ zoneTableOk t.zones = true ∧
    (∀ k, recipeInRange (vget t.recipes k) = true ∧ (vget t.recipes k).revision < 256) ∧
    (∀ k, stepInRange (vget t.steps k) = true) ∧ (∀ st, stationInRange (t.stations.get st) = true) ∧
    lineInRange t.line = true ∧
    (∀ i c, (vget t.map i).config = some c → mapInRange c = true) ∧
    (∀ i, mapAllowed t.map i (vget t.map i).config = true)

end Sys2Proof.Machine
end

