-- ==== Sys2Proof/WellFormed.lean ====
section
/-! DEFINITION. Which commands are well formed: the limits of R5, R24 and R183 on what can arrive that the operand types
leave open. -/

namespace Sys2Proof

open Sys2Proof.Machine

/-- The longest payload of a frame (R5). -/
abbrev maxPayload : Nat := 120

/-- The longest request body: a payload without tag and code (R5, R24). -/
def bodyFits (body : List Byte) : Bool := decide (body.length ≤ maxPayload - 2)

/-- A short request has no tag and code to echo (R24). -/
def shortFits (payload : List Byte) : Bool := decide (payload.length < 2)

/-- An unknown request is one that no other row takes (R183). -/
def unknownFits (q : Sender) (code : Byte) (body : List Byte) : Bool :=
  bodyFits body && decide (decodeCode q code body = .unknownRequest q code body)

/-- At most 128 bytes of a frame matter: after a 128th the port stores no more (R5). -/
def frameFits (f : RxFrame) : Bool := decide (f.bytes.length ≤ 128)

/-- A port's disturbance: a valid symbol other than idle disturbs IN alone (R2). -/
def disturbanceFits : Port → Disturbance → Bool
  | .out, .nonIdleSymbol => false
  | _, _ => true

/-- The well-formed commands. -/
def wellFormed : Instr → Bool
  | .frameReceived f => frameFits f
  | .linkTrainingDisturbed p d => disturbanceFits p d
  | .shortRequestDiscard _ payload => shortFits payload
  | .unknownRequest q code body => unknownFits q code body
  | .readId _ body | .tableWrite _ body | .tableRead _ body | .readStatus _ body | .readConditions _ body
  | .clearConditions _ body | .setMask _ body | .forceCondition _ body | .setRecordBase _ body | .setTime _ body
  | .historySummary _ body | .collect _ body | .release _ body | .storeImage _ body => bodyFits body
  | .bindRecipe _ _ _ | .wake _ _ _ | .standby _ _ _ | .off _ _ _ | .produce _ _ _ | .stop _ _ _
  | .abortCycle _ _ _ | .zoneRecover _ _ _ | .demouldRelease _ _ _ | .demouldReset _ _ _ | .tare _ _ | .zero _ _
  | .cancel _ _ | .readCounters _ | .readCountersClear _ | .restart _ | .restartForce _ | .powerOn
  | .linkSignalPresent _ _ | .linkCleanTimeExpiry _ | .linkTrainingSignalLoss _ | .linkLoss _ _
  | .frameTransmitComplete | .eventFrameJoin | .partFrameJoin | .sampleEntryStale _ | .imageLoadComplete _
  | .imageStoreEnd _ | .settleTimerExpiry _ | .cureAccrualComplete _ | .maximumCureTimeExpiry _
  | .outOfBandAllowanceExceeded _ | .permitRefreshExpiry _ | .regulationEvent _ | .blindHoldExpiry _
  | .budgetPeriodExpiry | .stableDwellExpiry | .loadingTimerExpiry | .stepTimerExpiry _ | .dwellTimerExpiry _ => true

end Sys2Proof
end

