-- ==== Sys2Proof/Certificates/Slice0/Obligations.lean ====
section
/-! DEFINITION. The statements for the provers. Each docstring says which rules of the spec the statement formalises and
which of its clauses rest on a choice of the model, with the log entry. -/

open Sys2Proof Sys2Proof.Machine

/-! ### The machine: steps, reset, the take and judgement of requests -/

/-- A step runs the command at the front of the queue, with the queue's rest. -/
def Obligations.StepRunsFrontCommand : Prop :=
  ∀ (s : State) (c : Instr) (rest : List Instr),
    s.pending = c :: rest → step s = exec c { s with pending := rest }

/-- With no command waiting, the event that is due is taken. Due are: an EVENT frame that waits with fewer than 16 frames in
the info queue; with none waiting, a PART frame of a collection with fewer than 12 (R18, R177, R189); the oldest request
(R182); a port in TRAINING with a clean time of 2 ms (R2); a FRESH map entry at its freshness limit (R39); in CURING the
accrual marked complete (R75), the elapsed timer at its maximum (R74), an out-of-band time past the allowance and not yet
flagged (R76); every timer at its length. Of several the first in the order of log 9 is taken. With none due, one
millisecond passes: the clean time of a port in TRAINING on valid symbols (R2), the ages of the map entries (R31), a valid line time (R172), every running timer
of stations, sequencers, zones, budget and scale up to its length, the running charge wait, cure, out-of-band and elapsed
counts of a cycle (R73 to R76) and a running demould clock (R166) advance by 1, and nothing is posted, latched or taken.
The accrual stops one short of the cure time and its completion is then due (R75). The step of one millisecond is the
model's choice (log 1), the way the accrual comes due too (log 34). -/
def Obligations.IdleStepIsOneMillisecond : Prop :=
  let run (x : Timer) : Timer := x.map fun r => { r with elapsed := min (r.elapsed + 1) r.length }
  let long (n : Nat) : Nat := min (n + 1) 4294967295
  let port (p : PortState) : PortState :=
    if p.link = .training ∧ p.reception = .clean then { p with cleanTime := min (p.cleanTime + 1) 2 } else p
  let cycle (c : Cycle) : Cycle :=
    let full := c.recipe.cure * 100
    { c with
      chargeWait := if c.waitRunning = true then long c.chargeWait else c.chargeWait
      accrued := if c.accruing = true ∧ c.accrued + 1 < full then c.accrued + 1 else c.accrued
      accrualUp := decide (c.accrualUp = true ∨ (c.accruing = true ∧ full ≤ c.accrued + 1))
      outOfBand := if c.outCounting = true then long c.outOfBand else c.outOfBand
      elapsed := if c.elapsedRunning = true then min (c.elapsed + 1) (c.recipe.maxCure * 100) else c.elapsed }
  let ended (x : Timer) : Prop := ∃ r, x = some r ∧ r.length ≤ r.elapsed
  let place (c : Instr) : Nat := match c with
    | .eventFrameJoin => 0
    | .partFrameJoin => 1
    | .linkCleanTimeExpiry .inp => 3
    | .linkCleanTimeExpiry .out => 4
    | .sampleEntryStale i => 5 + i.val
    | .cureAccrualComplete st => 101 + stationNum st
    | .maximumCureTimeExpiry st => 103 + stationNum st
    | .outOfBandAllowanceExceeded st => 105 + stationNum st
    | .settleTimerExpiry st => 107 + stationNum st
    | .stepTimerExpiry st => 109 + stationNum st
    | .dwellTimerExpiry st => 111 + stationNum st
    | .permitRefreshExpiry st => 113 + stationNum st
    | .blindHoldExpiry z => 115 + z.val
    | .regulationEvent z => 147 + z.val
    | .stableDwellExpiry => 179
    | .loadingTimerExpiry => 180
    | .budgetPeriodExpiry => 181
    | _ => 2
  let due (b : Block) (c : Instr) : Prop :=
    let waits := b.cdu.gateOpen = true ∧ b.cdu.latched &&& ~~~b.cdu.mask ≠ 0
    let curing (st : Station) (p : Cycle → Prop) : Prop :=
      (stcOf b st).state = .curing ∧ ∃ k, (stcOf b st).cycle = some k ∧ p k
    match c with
    | .eventFrameJoin => waits ∧ b.rpu.infoQ.length < 16
    | .partFrameJoin => b.hst.collection ≠ none ∧ ¬ waits ∧ b.rpu.infoQ.length < 12
    | .linkCleanTimeExpiry p =>
      (portOf b p).link = .training ∧ (portOf b p).reception = .clean ∧ 2 ≤ (portOf b p).cleanTime
    | .sampleEntryStale i => ∃ x, (vget b.tab.map i).config = some x ∧ (vget b.tab.map i).freshness = .fresh ∧
        x.freshLimit ≤ (vget b.tab.map i).age
    | .cureAccrualComplete st => curing st fun k => k.accruing = true ∧ k.accrualUp = true
    | .maximumCureTimeExpiry st => curing st fun k => k.elapsedRunning = true ∧ k.recipe.maxCure * 100 ≤ k.elapsed
    | .outOfBandAllowanceExceeded st => curing st fun k => k.outCounting = true ∧
        k.recipe.allowance * 1000 < k.outOfBand ∧ ∃ r, openRecordOf b st = some r ∧ r.flags.getLsbD 6 = false
    | .settleTimerExpiry st => ended (stcOf b st).settle
    | .stepTimerExpiry st => ended (dmsOf b st).stepTimer
    | .dwellTimerExpiry st => ended (dmsOf b st).dwellTimer
    | .permitRefreshExpiry st => ended (stcOf b st).refresh
    | .blindHoldExpiry z => ended (zoneOf b z).blindHold
    | .regulationEvent z => ended (zoneOf b z).timer
    | .stableDwellExpiry => ended b.scu.dwell
    | .loadingTimerExpiry => ended b.scu.loading
    | .budgetPeriodExpiry => ended b.pwa.timer
    | _ => ∃ r rest, b.mga.requests = r :: rest ∧ decodeRequest r = c
  ∀ s : State, s.pending = [] →
    (∀ c, dueCommand s.toBlock = some c ↔ due s.toBlock c ∧ ∀ d, due s.toBlock d → place c ≤ place d) ∧
    (∀ c, dueCommand s.toBlock = some c → step s = exec c s) ∧
    (dueCommand s.toBlock = none → ∃ t, step s = .next t ∧ t.pending = [] ∧
      (∀ i, vget t.tab.map i =
        { vget s.tab.map i with
          age := if (vget s.tab.map i).freshness = .never then (vget s.tab.map i).age
                 else min ((vget s.tab.map i).age + 1) 65535 }) ∧
      (s.hst.lineTime = none → t.hst.lineTime = none) ∧
      (∀ x, s.hst.lineTime = some x → x.ms < 999 → t.hst.lineTime = some { x with ms := x.ms + 1 }) ∧
      (∀ x, s.hst.lineTime = some x → x.ms = 999 → x.sec < 4294967295 →
        t.hst.lineTime = some { sec := x.sec + 1, ms := 0 }) ∧
      (∀ x, s.hst.lineTime = some x → x.ms = 999 → x.sec = 4294967295 →
        t.hst.lineTime = some { sec := 0, ms := 0 }) ∧
      t.hst = { s.hst with lineTime := t.hst.lineTime } ∧ t.tab = { s.tab with map := t.tab.map } ∧
      t.rpu = { s.rpu with inPort := port s.rpu.inPort, outPort := port s.rpu.outPort } ∧
      (∀ st, stcOf t.toBlock st = { stcOf s.toBlock st with
        settle := run (stcOf s.toBlock st).settle, refresh := run (stcOf s.toBlock st).refresh
        cycle := (stcOf s.toBlock st).cycle.map cycle }) ∧
      (∀ st, dmsOf t.toBlock st = { dmsOf s.toBlock st with
        stepTimer := run (dmsOf s.toBlock st).stepTimer, dwellTimer := run (dmsOf s.toBlock st).dwellTimer
        clock := (dmsOf s.toBlock st).clock.map long }) ∧
      (∀ z, zoneOf t.toBlock z = { zoneOf s.toBlock z with
        timer := run (zoneOf s.toBlock z).timer, blindHold := run (zoneOf s.toBlock z).blindHold }) ∧
      t.zrg.markers = s.zrg.markers ∧ t.pwa = { s.pwa with timer := run s.pwa.timer } ∧
      t.scu = { s.scu with dwell := run s.scu.dwell, loading := run s.scu.loading } ∧
      t.cdu = s.cdu ∧ t.mga = s.mga ∧ t.choices = s.choices)

/-- Every command has an outcome that is a next state, and none touches the commands waiting. -/
def Obligations.EveryCommandCompletes : Prop :=
  ∀ (c : Instr) (s : State), ∃ b : Block, exec c s = .next (s.closing b)

/-- What reset leaves, block by block (R2, R8, R11, R19, R59, R86, R109, R123, R147, R168, R182, R187, R189, R190), the
tables at the default contents of R44 and the Sample Map empty. -/
def Obligations.ResetValues : Prop :=
  let r := State.reset
  r.pending = [] ∧
  r.rpu.inPort.link = .down ∧ r.rpu.outPort.link = .down ∧ r.rpu.forwardQ = [] ∧ r.rpu.controlQ = [] ∧
  r.rpu.infoQ = [] ∧ r.rpu.forwardCount = 0 ∧ r.rpu.counters = zeroCounters ∧ r.rpu.ownAddress = 63 ∧
  (∀ i, (vget r.tab.map i).config = none ∧ (vget r.tab.map i).freshness = .never ∧
    (vget r.tab.map i).held = 0 ∧ (vget r.tab.map i).quality = 4 ∧ (vget r.tab.map i).jumps = 0) ∧
  (∀ z, vget r.tab.zones z =
    { enabled := false, station := .a, platen := .upper, driveNode := 0, driveChannel := 0, ratedPower := 0, codeN := 0
      codeM := 0, kp := 0, ki := 0, ff := 0, dutyCeiling := 0, slew := 1, rampStep := 1, offset := 0
      standbySetpoint := 0, overtempLimit := 0, scanWindow := 16, switchMargin := 1, blindCap := 0, blindHold := 1 }) ∧
  (∀ i, vget r.tab.recipes i =
    { revision := 0, upper := 0, lower := 0, width := 1, settle := 1, cure := 1, maxCure := 1, minTonnage := 0
      target := 1, tolLow := 0, tolHigh := 0, early := 500, maxAttempts := 1, maxWait := 1, allowance := 0
      firstStep := 0, maxRetries := 0, scanEnable := false, scanForce := 10, scanTravel := 1 }) ∧
  (∀ i, vget r.tab.steps i =
    { used := false, copy := { mask := 1, target := 0, ceiling := 1, speed := 0, dwell := 0, timeout := 100 }
      next := none }) ∧
  (∀ st, r.tab.stations.get st = { pressNode := 0, ejectorNode := 0, refresh := 1000, tolerance := 1 }) ∧
  r.tab.line = { own := 63, master := 255, robot := 0, cap := 0, headroom := 0, period := 1000, restore := 90, zero := 0
                 span := 65536, capacity := 500000, emptyLimit := 0, windowCode := 0, stableBand := 1, leaveBand := 1
                 dwellCode := 0, maxLoading := 5, watermark := 48 } ∧
  (∀ st, (stcOf r.toBlock st).state = .off ∧ (stcOf r.toBlock st).bound = none ∧
    (stcOf r.toBlock st).production = false ∧ (stcOf r.toBlock st).deferredWake = false ∧
    (∀ z, vget (stcOf r.toBlock st).inBand z = false) ∧ (stcOf r.toBlock st).settle = none ∧
    (stcOf r.toBlock st).heatReady = false ∧ (stcOf r.toBlock st).closeOk = false ∧
    (stcOf r.toBlock st).openOk = false ∧ (stcOf r.toBlock st).refresh = none ∧
    (stcOf r.toBlock st).cycle = none) ∧
  (∀ z, (zoneOf r.toBlock z).state = .disabled ∧ (zoneOf r.toBlock z).cause = .none ∧
    (zoneOf r.toBlock z).wsp = 0 ∧ (zoneOf r.toBlock z).iq = 0 ∧ (zoneOf r.toBlock z).r = 0 ∧
    (zoneOf r.toBlock z).g = 0 ∧ (zoneOf r.toBlock z).slot = .zero ∧ (zoneOf r.toBlock z).timer = none ∧
    (zoneOf r.toBlock z).inBand = false ∧ vget r.pwa.allowance z = 0) ∧
  r.pwa.pressure = false ∧ r.pwa.timer = none ∧
  r.scu = { tare := 0, latestGross := none, window := [], stable := false, overload := false, claims := []
            session := none, dwell := none, loading := none, accepted := { a := none, b := none } } ∧
  (∀ st, (dmsOf r.toBlock st).state = .idle ∧ (dmsOf r.toBlock st).stepPos = 0 ∧
    (dmsOf r.toBlock st).retractPos = none ∧ (dmsOf r.toBlock st).cause = .none ∧
    (dmsOf r.toBlock st).order = none ∧ (dmsOf r.toBlock st).clock = none) ∧
  (∀ i, vget r.hst.slots i = .free) ∧ r.hst.counter = none ∧ r.hst.lineTime = none ∧ r.hst.collection = none ∧
  condNumbers r.cdu.present = [15, 16, 20] ∧ r.cdu.latched = r.cdu.present ∧ r.cdu.mask = BitVec.allOnes 23 ∧
  r.cdu.gateOpen = true ∧ r.mga.requests = [] ∧ r.mga.image = .loading

/-- Every request is the take of exactly one command, and every well-formed request command is decoded from its own
request: the codes of R24, R60 and R130, the options of R184. That a STATION_COMMAND, SCALE_COMMAND, READ_COUNTERS or
RESTART of a wrong length, option or command code is taken as UNKNOWN_REQUEST is the model's choice (log 15). -/
def Obligations.RequestDecodeEncode : Prop :=
  (∀ (i : Instr) (r : Request), wellFormed i = true → requestOf i = some r → decodeRequest r = i) ∧
  (∀ r : Request, requestOf (decodeRequest r) = some r)

/-- The take of a request (R182) removes it from the front of the queue; with the queue empty it has just arrived
(log 4). Where another request is at the front, the take cannot happen and changes nothing (log 4). -/
def Obligations.RequestTakeFromFront : Prop :=
  (∀ (r : Request) (rest : List Request) (s : Block), s.mga.requests = r :: rest →
    takeRequest r s = some { s with mga := { s.mga with requests := rest } }) ∧
  (∀ (r : Request) (s : Block), s.mga.requests = [] → takeRequest r s = some s) ∧
  (∀ (r x : Request) (rest : List Request) (s : Block), s.mga.requests = x :: rest → x ≠ r →
    takeRequest r s = none) ∧
  (∀ (c : Instr) (r : Request) (s : State), requestOf c = some r → takeRequest r s.toBlock = none →
    exec c s = .next (s.closing s.toBlock))

/-- Checks 2 to 4 of R183, in their order, for every request: BUSY while LOADING; BAD_INDEX for a table identifier above
5 and BAD_REQUEST for a code that is unknown or a body of another length than R184 requires; REFUSED for a write-class
request from another node than the master, whatever its step byte, command code or option. Nothing but the reply is done. The
form of a read-class TABLE_READ or READ_STATUS holds its step byte, selector, zone count and entry bytes too: no master check
stands before them. The model's choices in it: the refusal body [0] of a TABLE_WRITE (log 13); a READ_COUNTERS with an option
above 1 is no write (log 14); what UNKNOWN_REQUEST takes (log 15). -/
def Obligations.RequestJudgedInOrder : Prop :=
  ∀ (c : Instr) (j : Judged) (r : Request) (s : State) (s1 : Block),
    judgedOf c = some j → requestOf c = some r → wellFormed c = true → takeRequest r s.toBlock = some s1 →
    (s1.mga.image = .loading →
      exec c s = .next (s.closing (reply j.sender j.code .busy j.refusal s1))) ∧
    (s1.mga.image ≠ .loading → namesNoTable c = true →
      exec c s = .next (s.closing (reply j.sender j.code .badIndex j.refusal s1))) ∧
    (s1.mga.image ≠ .loading → namesNoTable c = false → j.form = false →
      exec c s = .next (s.closing (reply j.sender j.code .badRequest j.refusal s1))) ∧
    (s1.mga.image ≠ .loading → namesNoTable c = false → j.form = true → j.cls = .write →
      s1.tab.line.master ≠ 255 → j.sender.src.toNat ≠ s1.tab.line.master →
      exec c s = .next (s.closing (reply j.sender j.code .refused j.refusal s1)))

/-- A reply (R17, R24): tag, request code, status and body, addressed to the source, join the back of the info queue
while it holds fewer than 16 frames; else the reply is dropped, REQ_DROP is counted and QUEUE_DROP latched. Nothing
else changes. -/
def Obligations.ReplyJoinsOrIsDropped : Prop :=
  ∀ (q : Sender) (code : Nat) (st : Status) (body : List Byte) (s : Block),
    (s.rpu.infoQ.length < 16 → reply q code st body s =
      { s with rpu := { s.rpu with
          infoQ := s.rpu.infoQ ++
            [{ dest := q.src, kind := 0x41
               payload := [q.tag, BitVec.ofNat 8 code, BitVec.ofNat 8 (statusCode st)] ++ body }] } }) ∧
    (16 ≤ s.rpu.infoQ.length → reply q code st body s =
      { s with
        rpu := { s.rpu with counters := { s.rpu.counters with reqDrop := min (s.rpu.counters.reqDrop + 1) 65535 } }
        cdu := { s.cdu with latched := s.cdu.latched ||| (1#23 <<< 18) } })

/-- SHORT_REQUEST_DISCARD (R24): no reply, and nothing but its place in the queue changes. UNKNOWN_REQUEST of a
STATION_COMMAND of 3 bytes: BAD_INDEX for a station above 1, else BAD_REQUEST for its command code (R60); of a
SCALE_COMMAND of 2 bytes: BAD_REQUEST (R130); of a RESTART with an option above 1: BAD_REQUEST, also while STORING (R184,
log 14). These are write-class requests: from another node than the master they are REFUSED (R183). A READ_COUNTERS with an
option above 1 is BAD_REQUEST from every node (R184, log 14), and so is a code above 12h. That these requests are taken by the
row UNKNOWN_REQUEST is the model's choice (log 15). -/
def Obligations.ShortAndUnknownRequests : Prop :=
  (∀ (src : Byte) (payload : List Byte) (s : State) (s1 : Block), payload.length < 2 →
    takeRequest { src := src, payload := payload } s.toBlock = some s1 →
    exec (.shortRequestDiscard src payload) s = .next (s.closing s1)) ∧
  (∀ (q : Sender) (st cmd arg : Byte) (s : State) (s1 : Block), cmd.toNat = 0 ∨ 10 < cmd.toNat →
    takeRequest (mgmtRequest q 4 [st, cmd, arg]) s.toBlock = some s1 → s1.mga.image ≠ .loading →
    masterAdmits s1 q.src = true →
    exec (.unknownRequest q 4 [st, cmd, arg]) s =
      .next (s.closing (reply q 4 (if 1 < st.toNat then .badIndex else .badRequest) [] s1))) ∧
  (∀ (q : Sender) (cmd st : Byte) (s : State) (s1 : Block), cmd.toNat = 0 ∨ 3 < cmd.toNat →
    takeRequest (mgmtRequest q 5 [cmd, st]) s.toBlock = some s1 → s1.mga.image ≠ .loading →
    masterAdmits s1 q.src = true →
    exec (.unknownRequest q 5 [cmd, st]) s = .next (s.closing (reply q 5 .badRequest [] s1))) ∧
  (∀ (q : Sender) (opt : Byte) (s : State) (s1 : Block), 1 < opt.toNat →
    takeRequest (mgmtRequest q 0x12 [opt]) s.toBlock = some s1 → s1.mga.image ≠ .loading →
    masterAdmits s1 q.src = true →
    exec (.unknownRequest q 0x12 [opt]) s = .next (s.closing (reply q 0x12 .badRequest [] s1))) ∧
  (∀ (q : Sender) (code : Byte) (body : List Byte) (s : State) (s1 : Block),
    (code = 4 ∧ body.length = 3 ∨ code = 5 ∧ body.length = 2 ∨ code = 0x12 ∧ body.length = 1) →
    decodeRequest (mgmtRequest q code.toNat body) = .unknownRequest q code body →
    takeRequest (mgmtRequest q code.toNat body) s.toBlock = some s1 → s1.mga.image ≠ .loading →
    masterAdmits s1 q.src = false →
    exec (.unknownRequest q code body) s = .next (s.closing (reply q code.toNat .refused [] s1))) ∧
  (∀ (q : Sender) (code : Byte) (body : List Byte) (s : State) (s1 : Block),
    (code = 7 ∧ (∃ opt : Byte, body = [opt] ∧ 1 < opt.toNat) ∨ code = 0 ∨ 0x12 < code.toNat) →
    takeRequest (mgmtRequest q code.toNat body) s.toBlock = some s1 → s1.mga.image ≠ .loading →
    exec (.unknownRequest q code body) s = .next (s.closing (reply q code.toNat .badRequest [] s1)))

/-! ### Ring Port Unit -/

/-- The link commands in each link state (R2, R4), for each port: signal present in DOWN starts TRAINING with a clean time
of zero, in TRAINING it is only the evidence that changes; a disturbance in TRAINING restarts the count, but a valid
symbol other than idle does nothing at OUT; 2 ms of valid symbols bring UP and end the port's condition; no signal in
TRAINING brings DOWN uncounted; a lost UP link brings DOWN, counts DISCONNECT and raises the port's condition, and OUT
loses its forward and control queues, its frame on the line and the consecutive-forward count, but not the info queue.
The evidence that each command brings is the port's reception, at IN the reception that the part reports (R1): in UP a signal
with or without valid symbols shows CLEAN or SIGNAL, and in UP and DOWN a disturbance is noted without a change of the link
state. Nothing else changes. That the part keeps this evidence of each port, and a clean time of 0 in UP and DOWN, is the
model's choice (log 11); so is that in any other link state the event cannot occur and nothing happens (log 3). -/
def Obligations.LinkTransitions : Prop :=
  ∀ (p : Port) (s : State),
    let b := s.toBlock
    let x := portOf b p
    let bit : BitVec 23 := 1#23 <<< (match p with | .inp => 15 | .out => 16)
    let heard (valid : Bool) : Reception := if valid = true then .clean else .signal
    let noted (d : Disturbance) : Block :=
      if p = .out ∧ d = .nonIdleSymbol then b
      else setPort p { x with cleanTime := 0, reception := match d with
        | .invalidSymbol => .signal
        | .noSignal => .noSignal
        | .nonIdleSymbol => .clean } b
    let ends (c : Instr) (b : Block) : Prop := exec c s = .next (s.closing b)
    let lost (signal : Bool) : Block :=
      let down := setPort p
        { link := .down, reception := if signal = true then .signal else .noSignal, cleanTime := 0 } b
      { down with
        rpu := { down.rpu with
          counters := { b.rpu.counters with disconnect := min (b.rpu.counters.disconnect + 1) 65535 } }
        cdu := { b.cdu with
          present := b.cdu.present ||| bit
          latched := if b.cdu.present &&& bit = 0 then b.cdu.latched ||| bit else b.cdu.latched } }
    (x.link = .down →
      (∀ valid, ends (.linkSignalPresent p valid)
        (setPort p { link := .training, reception := heard valid, cleanTime := 0 } b)) ∧
      (∀ d, ends (.linkTrainingDisturbed p d) (noted d)) ∧ ends (.linkCleanTimeExpiry p) b ∧
      ends (.linkTrainingSignalLoss p) b ∧ (∀ signal, ends (.linkLoss p signal) b)) ∧
    (x.link = .training →
      (∀ valid, ends (.linkSignalPresent p valid) (setPort p
        { link := .training, reception := heard valid, cleanTime := if valid = true then x.cleanTime else 0 } b)) ∧
      (∀ d, ends (.linkTrainingDisturbed p d) (noted d)) ∧
      ends (.linkCleanTimeExpiry p)
        { setPort p { link := .up, reception := .clean, cleanTime := 0 } b with
          cdu := { b.cdu with present := b.cdu.present &&& ~~~bit } } ∧
      ends (.linkTrainingSignalLoss p) (setPort p { link := .down, reception := .noSignal, cleanTime := 0 } b) ∧
      (∀ signal, ends (.linkLoss p signal) b)) ∧
    (x.link = .up →
      (∀ valid, ends (.linkSignalPresent p valid) (setPort p { x with reception := heard valid } b)) ∧
      (∀ d, ends (.linkTrainingDisturbed p d) (noted d)) ∧
      ends (.linkCleanTimeExpiry p) b ∧ ends (.linkTrainingSignalLoss p) b ∧
      (∀ signal, ends (.linkLoss p signal) (match p with
        | .inp => lost signal
        | .out => { lost signal with rpu := { (lost signal).rpu with
            forwardQ := [], controlQ := [], forwardCount := 0, onLine := none } })))

/-- Nothing but the link commands and POWER_ON changes a link state (R2): every other command leaves both as they are,
RESTART among them. -/
def Obligations.LinkStatesKept : Prop :=
  ∀ (c : Instr) (s t : State), exec c s = .next t →
    c = .powerOn ∨ (∃ p v, c = .linkSignalPresent p v) ∨ (∃ p, c = .linkCleanTimeExpiry p) ∨
    (∃ p, c = .linkTrainingSignalLoss p) ∨ (∃ p g, c = .linkLoss p g) ∨
    (t.rpu.inPort.link = s.rpu.inPort.link ∧ t.rpu.outPort.link = s.rpu.outPort.link)

/-- The frame check (R6), written as the division by x^16+x^12+x^5+1 that it is: the register starts at FFFFh, each
byte enters its upper eight bits, and the register is shifted eight times, each shift whose outgoing bit was 1 being
combined with 1021h. A received string passes when the check over all but its last two bytes equals those two, low byte
first; and the bytes of every frame the part sends, forwarded or its own, end with a check computed over them, low byte
first. -/
def Obligations.FrameCheckRule : Prop :=
  (frameCheck [] = 0xFFFF#16) ∧
  (∀ (bs : List Byte) (b : Byte), frameCheck (bs ++ [b]) =
    (List.range 8).foldl (fun r _ => if r.getLsbD 15 then (r <<< 1) ^^^ 0x1021#16 else r <<< 1)
      (frameCheck bs ^^^ (b.setWidth 16 <<< 8))) ∧
  (∀ (bs : List Byte) (lo hi : Byte), checkPasses (bs ++ [lo, hi]) = true ↔ frameCheck bs = hi ++ lo) ∧
  (∀ f : Frame, ∃ body : List Byte, ∃ lo hi : Byte, frameBytes f = body ++ [lo, hi] ∧ hi ++ lo = frameCheck body ∧
    body = [f.dest, f.src, f.kind, f.hops, BitVec.ofNat 8 f.payload.length] ++ f.payload)

/-- Every frame the part builds with a payload of at most 120 bytes is well formed, passes the frame check and reads
back as itself (R5, R6, R21). A received string is well formed exactly when it reached its end symbol, holds 7 to 127
bytes, and its fifth byte, the payload length, is at most 120 and 7 less than the byte count (R5): a frame cut short, too
short, too long, or of another length than it says is not. -/
def Obligations.FrameEncodeDecode : Prop :=
  (∀ f : Frame, f.payload.length ≤ 120 →
    wellFramed { bytes := frameBytes f, cutShort := false } = true ∧ checkPasses (frameBytes f) = true ∧
    frameOf (frameBytes f) = f) ∧
  (∀ f : RxFrame, wellFramed f = true ↔ f.cutShort = false ∧ 7 ≤ f.bytes.length ∧ f.bytes.length ≤ 127 ∧
    (f.bytes.getD 4 0).toNat ≤ 120 ∧ f.bytes.length = (f.bytes.getD 4 0).toNat + 7)

/-- FRAME_RECEIVED (R1, R3, R7, R9, R182): with IN not UP nothing arrives; otherwise a frame not cut short leaves the reception
CLEAN (log 11), and the checks of R7 follow in order, each frame
that passes check 1 (well formed as `FrameEncodeDecode` states it, and its frame check passed) counted in RX_FRAMES. For a
frame that is not a SAMPLE frame for the part this is all it does. -/
def Obligations.ReceiveChecks : Prop :=
  ∀ (f : RxFrame) (s : State),
    let b : Block := if f.cutShort = true ∨ s.rpu.inPort.link ≠ .up then s.toBlock
      else { s.toBlock with rpu := { s.rpu with inPort := { s.rpu.inPort with reception := .clean } } }
    let g := frameOf f.bytes
    let good := wellFramed f = true ∧ checkPasses f.bytes = true
    let counted : Counters := { b.rpu.counters with rxFrames := min (b.rpu.counters.rxFrames + 1) 65535 }
    let own := b.rpu.ownAddress
    let forMe := g.src.toNat ≠ own ∧ g.hops ≠ 0 ∧ g.dest.toNat = own
    let onward := g.src.toNat ≠ own ∧ g.hops ≠ 0 ∧ g.dest.toNat ≠ own
    (b.rpu.inPort.link ≠ .up → exec (.frameReceived f) s = .next (s.closing b)) ∧
    (b.rpu.inPort.link = .up →
      (¬ good → exec (.frameReceived f) s = .next (s.closing
        { b with rpu := { b.rpu with counters := { b.rpu.counters with
                    crcErr := min (b.rpu.counters.crcErr + 1) 65535 } }
                 cdu := { b.cdu with latched := b.cdu.latched ||| (1#23 <<< 17) } })) ∧
      (good → g.src.toNat = own → exec (.frameReceived f) s = .next (s.closing
        { b with rpu := { b.rpu with counters := { counted with
                    returned := min (b.rpu.counters.returned + 1) 65535 } } })) ∧
      (good → g.src.toNat ≠ own → g.hops = 0 → exec (.frameReceived f) s = .next (s.closing
        { b with rpu := { b.rpu with counters := { counted with
                    hopExpired := min (b.rpu.counters.hopExpired + 1) 65535 } } })) ∧
      (good → forMe → g.kind ≠ 0x40 → g.kind ≠ 0x10 → exec (.frameReceived f) s = .next (s.closing
        { b with rpu := { b.rpu with counters := { counted with
                    wrongKind := min (b.rpu.counters.wrongKind + 1) 65535 } } })) ∧
      (good → forMe → g.kind = 0x40 → b.mga.requests.length < 4 → exec (.frameReceived f) s = .next (s.closing
        { b with rpu := { b.rpu with counters := counted }
                 mga := { b.mga with requests := b.mga.requests ++ [{ src := g.src, payload := g.payload }] } })) ∧
      (good → forMe → g.kind = 0x40 → 4 ≤ b.mga.requests.length → exec (.frameReceived f) s = .next (s.closing
        { b with rpu := { b.rpu with counters := { counted with
                    reqDrop := min (b.rpu.counters.reqDrop + 1) 65535 } }
                 cdu := { b.cdu with latched := b.cdu.latched ||| (1#23 <<< 18) } })) ∧
      (good → onward → (g.dest = 255 → g.kind ≠ 0x10) → b.rpu.outPort.link = .up → b.rpu.forwardQ.length < 4 →
        exec (.frameReceived f) s = .next (s.closing
          { b with rpu := { b.rpu with counters := counted
                                       forwardQ := b.rpu.forwardQ ++ [{ g with hops := g.hops - 1 }] } })) ∧
      (good → onward → (g.dest = 255 → g.kind ≠ 0x10) → (b.rpu.outPort.link ≠ .up ∨ 4 ≤ b.rpu.forwardQ.length) →
        exec (.frameReceived f) s = .next (s.closing
          { b with rpu := { b.rpu with counters := { counted with
                      fwdDrop := min (b.rpu.counters.fwdDrop + 1) 65535 } }
                   cdu := { b.cdu with latched := b.cdu.latched ||| (1#23 <<< 18) } })))

/-- The decision of the OUT arbiter (R11) that ends every command: while OUT is UP and idle, with k the
consecutive-forward count, the oldest forwarded frame when k is below 4 or both insertion queues are empty, else the
front of the control queue, else the oldest info frame; an inserted frame carries the own address as its source and
64 hops (R10). While OUT is busy or not UP, and with all three queues empty, nothing is done. FRAME_TRANSMIT_COMPLETE
(R10, R11) frees the line and counts TX_FRAMES, and the arbiter decides next; with no frame on the line nothing completes
(log 3). A DRIVE, STROKE, PERMIT or WEIGH frame goes to its node with the payload of R23, byte by byte, whatever its values.
That the decision is taken at the end of every event, after all the event's posts, is the model's reading (log 5): here at
the end of the command, and inside a command of several events in `SampleFramesTaken`, `TableWrite` and `CancelCommand`. -/
def Obligations.TransmitAndArbiter : Prop :=
  (∀ s : State, s.rpu.onLine ≠ none →
    exec .frameTransmitComplete s = .next (s.closing
      { s.toBlock with rpu := { s.rpu with
          onLine := none
          counters := { s.rpu.counters with txFrames := min (s.rpu.counters.txFrames + 1) 65535 } } })) ∧
  (∀ s : State, s.rpu.onLine = none → exec .frameTransmitComplete s = .next (s.closing s.toBlock)) ∧
  ∀ s : Block,
    let idle := s.rpu.outPort.link = .up ∧ s.rpu.onLine = none
    (¬ idle → arbitrate s = s) ∧
    (idle → ∀ f fs, s.rpu.forwardQ = f :: fs →
      (s.rpu.forwardCount < 4 ∨ (s.rpu.controlQ = [] ∧ s.rpu.infoQ = [])) →
      arbitrate s = { s with rpu := { s.rpu with
        forwardQ := fs, onLine := some (frameBytes f), forwardCount := min (s.rpu.forwardCount + 1) 4 } }) ∧
    (idle → (s.rpu.forwardQ = [] ∨ 4 ≤ s.rpu.forwardCount) → ∀ c cs, s.rpu.controlQ = c :: cs →
      arbitrate s = { s with rpu := { s.rpu with
        controlQ := cs, forwardCount := 0
        onLine := some (frameBytes
          { dest := (controlFrame c).dest, src := BitVec.ofNat 8 s.rpu.ownAddress, kind := (controlFrame c).kind
            hops := 64, payload := (controlFrame c).payload }) } }) ∧
    (idle → (s.rpu.forwardQ = [] ∨ 4 ≤ s.rpu.forwardCount) → s.rpu.controlQ = [] → ∀ i is, s.rpu.infoQ = i :: is →
      arbitrate s = { s with rpu := { s.rpu with
        infoQ := is, forwardCount := 0
        onLine := some (frameBytes
          { dest := i.dest, src := BitVec.ofNat 8 s.rpu.ownAddress, kind := i.kind
            hops := 64, payload := i.payload }) } }) ∧
    (s.rpu.forwardQ = [] → s.rpu.controlQ = [] → s.rpu.infoQ = [] → arbitrate s = s) ∧
    (let two (n : Nat) : List Byte := [BitVec.ofNat 8 n, BitVec.ofNat 8 (n / 256)]
     let four (n : Nat) : List Byte := two n ++ two (n / 65536)
     let number (st : Station) : Byte := match st with
       | .a => 0
       | .b => 1
     (∀ node es, controlFrame (.drive node es) =
       { dest := BitVec.ofNat 8 node, kind := 0x20
         payload := BitVec.ofNat 8 es.length :: es.flatMap fun e => BitVec.ofNat 8 e.channel :: two e.duty }) ∧
     (∀ st dest o, controlFrame (.stroke st dest o) =
       { dest := BitVec.ofNat 8 dest, kind := 0x24
         payload := number st :: o.mask :: (two o.target ++ two o.ceiling ++ [BitVec.ofNat 8 o.speed]) }) ∧
     (∀ st dest closeOk openOk n, controlFrame (.permit st dest closeOk openOk n) =
       { dest := BitVec.ofNat 8 dest, kind := 0x28
         payload := number st :: ((if closeOk = true then 1 else 0) ||| (if openOk = true then 2 else 0)) :: four n }) ∧
     (∀ dest n, controlFrame (.weigh dest n) =
       { dest := BitVec.ofNat 8 dest, kind := 0x30
         payload := [number n.station
           , match n.notice with
             | .clearScale => 1
             | .nearTarget => 2
             | .accepted => 3
             | .rejected => 4
             | .discard => 5
           , BitVec.ofNat 8 n.attempt
           , match n.cause with
             | .none => 0
             | .under => 1
             | .over => 2
             | .timeout => 3] ++ four (n.weight % 4294967296).toNat }))

/-- A duty posted for a node (R13, R14), OUT being UP: a channel the node's DRIVE frame carries is replaced in place, a
new channel joins the end of its entries, and with no frame for the node a new one joins the back, for which, when six
DRIVE frames are held, the oldest whose node no enabled zone names has been removed. A zone posts its granted duty to the
node and channel of its Zone Table entry (R97, R116), against the nodes of the enabled zones, and nothing but the control
queue changes. -/
def Obligations.DrivePosting : Prop :=
  (∀ (z : Fin 32) (s : Block), s.rpu.outPort.link = .up →
    postDuty z s = { s with rpu := { s.rpu with
      controlQ := putDrive (((List.finRange 32).filter fun w => (entryOf s w).enabled).map fun w => (entryOf s w).driveNode)
        (entryOf s z).driveNode (entryOf s z).driveChannel (zoneOf s z).g s.rpu.controlQ } }) ∧
  ∀ (nodes : List Nat) (node ch duty : Nat) (q : List ControlFrame),
    (∀ pre es post, q = pre ++ [.drive node es] ++ post →
      (∀ f ∈ pre, ∀ es', f ≠ .drive node es') → (∀ f ∈ post, ∀ es', f ≠ .drive node es') →
      (∀ e1 d e2, es = e1 ++ [{ channel := ch, duty := d }] ++ e2 → (∀ e ∈ e1, e.channel ≠ ch) →
        putDrive nodes node ch duty q = pre ++ [.drive node (e1 ++ [{ channel := ch, duty := duty }] ++ e2)] ++ post) ∧
      ((∀ e ∈ es, e.channel ≠ ch) →
        putDrive nodes node ch duty q = pre ++ [.drive node (es ++ [{ channel := ch, duty := duty }])] ++ post)) ∧
    ((∀ f ∈ q, ∀ es', f ≠ .drive node es') → (q.filterMap driveNodeOf).length < 6 →
      putDrive nodes node ch duty q = q ++ [.drive node [{ channel := ch, duty := duty }]]) ∧
    (∀ pre n es post, q = pre ++ [.drive n es] ++ post → (∀ f ∈ q, ∀ es', f ≠ .drive node es') →
      6 ≤ (q.filterMap driveNodeOf).length → n ∉ nodes → (∀ m ∈ pre.filterMap driveNodeOf, m ∈ nodes) →
      putDrive nodes node ch duty q = pre ++ post ++ [.drive node [{ channel := ch, duty := duty }]])

/-- A PERMIT or STROKE frame (R15), OUT being UP, takes the place of the frame of its kind held for its station and
keeps nothing of its contents; with none held it joins the back. Every other frame keeps its place, and nothing changes
but the control queue and, for a PERMIT, the station's refresh timer, which starts again with the period in force (R84). -/
def Obligations.PermitAndStrokeReplaceInPlace : Prop :=
  ∀ (st : Station) (s : Block), s.rpu.outPort.link = .up →
    let permit : ControlFrame := .permit st (s.tab.stations.get st).pressNode (stcOf s st).closeOk
      (stcOf s st).openOk (permitRecord s st)
    (∀ pre x post, s.rpu.controlQ = pre ++ [x] ++ post → isPermitOf st x = true →
      (∀ f ∈ pre, isPermitOf st f = false) → (postPermit st s).rpu.controlQ = pre ++ [permit] ++ post) ∧
    postPermit st s = { modStc st (fun c => { c with
        refresh := some { elapsed := 0, length := (s.tab.stations.get st).refresh } }) s with
      rpu := { s.rpu with controlQ := (postPermit st s).rpu.controlQ } } ∧
    ((∀ f ∈ s.rpu.controlQ, isPermitOf st f = false) →
      (postPermit st s).rpu.controlQ = s.rpu.controlQ ++ [permit]) ∧
    (∀ o : StrokeOrder,
      let stroke : ControlFrame := .stroke st (s.tab.stations.get st).ejectorNode o
      (∀ pre x post, s.rpu.controlQ = pre ++ [x] ++ post → isStrokeOf st x = true →
        (∀ f ∈ pre, isStrokeOf st f = false) →
        postStroke st o s = { s with rpu := { s.rpu with controlQ := pre ++ [stroke] ++ post } }) ∧
      ((∀ f ∈ s.rpu.controlQ, isStrokeOf st f = false) →
        postStroke st o s = { s with rpu := { s.rpu with controlQ := s.rpu.controlQ ++ [stroke] } }))

/-- A WEIGH frame (R16), OUT being UP: it joins the back while fewer than two are held; with two held the older is
removed, the other frames keep their order, and nothing is counted. At most two are held afterwards. -/
def Obligations.WeighPosting : Prop :=
  ∀ (n : WeighNotice) (s : Block), s.rpu.outPort.link = .up →
    let new : ControlFrame := .weigh s.tab.line.robot n
    ((s.rpu.controlQ.filter isWeigh).length < 2 →
      postWeigh n s = { s with rpu := { s.rpu with controlQ := s.rpu.controlQ ++ [new] } }) ∧
    (∀ pre x post, s.rpu.controlQ = pre ++ [x] ++ post → (∀ f ∈ pre, isWeigh f = false) → isWeigh x = true →
      (post.filter isWeigh).length = 1 →
      postWeigh n s = { s with rpu := { s.rpu with controlQ := pre ++ post ++ [new] } }) ∧
    ((s.rpu.controlQ.filter isWeigh).length ≤ 2 → ((postWeigh n s).rpu.controlQ.filter isWeigh).length ≤ 2)

/-- While OUT is not UP a frame posted to the control queue is discarded and its producer is not told (R4): nothing
changes but, for a PERMIT, the restart of the refresh timer (R84). -/
def Obligations.PostsDiscardedWhileDown : Prop :=
  ∀ (s : Block), s.rpu.outPort.link ≠ .up →
    (∀ z, postDuty z s = s) ∧ (∀ st o, postStroke st o s = s) ∧ (∀ n, postWeigh n s = s) ∧
    (∀ st, postPermit st s =
      modStc st (fun c => { c with refresh := some { elapsed := 0, length := (s.tab.stations.get st).refresh } }) s)

/-- EVENT_FRAME_JOIN (R18, R25, R189): with the gate OPEN, a condition latched and unmasked and room in the info queue,
the frame joins with the numbers of those conditions in ascending order, addressed to the master (255 when it is 255),
and the gate becomes CLOSED. With nothing to report, a CLOSED gate or no room, no frame joins. -/
def Obligations.EventFrameJoins : Prop :=
  ∀ s : State,
    let up := s.cdu.latched &&& ~~~s.cdu.mask
    let ks := (List.range 23).filter fun k => up.getLsbD k
    (s.cdu.gateOpen = true → up ≠ 0 → s.rpu.infoQ.length < 16 →
      exec .eventFrameJoin s = .next (s.closing
        { s.toBlock with
          rpu := { s.rpu with infoQ := s.rpu.infoQ ++
            [{ dest := BitVec.ofNat 8 s.tab.line.master, kind := 0x48
               payload := BitVec.ofNat 8 ks.length :: ks.map (BitVec.ofNat 8) }] }
          cdu := { s.cdu with gateOpen := false } })) ∧
    ((s.cdu.gateOpen = false ∨ up = 0 ∨ 16 ≤ s.rpu.infoQ.length) →
      exec .eventFrameJoin s = .next (s.closing s.toBlock))

/-! ### Sample Classifier -/

/-- SAMPLE frames (R7, R22, R32): a good SAMPLE frame for the part is offered to the Sample Classifier, a broadcast one
is forwarded and offered, one for another node is only forwarded (`ReceiveChecks`). The entries are taken one after
another, in the order they stand, with the frame's source as their node; a payload of n entries, n in 1..16, carries
exactly those n; a payload whose count or length is wrong carries none; during an image load nothing is taken. While OUT is
idle the arbiter decides after each entry, before the next is taken, and a frame that passes on is offered to it before the
entries: the model's reading of R11 (log 5). -/
def Obligations.SampleFramesTaken : Prop :=
  (∀ (f : RxFrame) (s : State),
    let g := frameOf f.bytes
    let taken (b : Block) : Block :=
      if b.mga.image = .loading then b
      else (sampleEntries g.payload).foldl (fun x e => arbitrate (sampleEntry g.src.toNat e x)) b
    let counted : Block := { s.toBlock with rpu := { s.rpu with
      inPort := { s.rpu.inPort with reception := .clean }, counters := { s.rpu.counters with
      rxFrames := min (s.rpu.counters.rxFrames + 1) 65535 } } }
    s.rpu.inPort.link = .up → wellFramed f = true → checkPasses f.bytes = true →
    g.src.toNat ≠ s.rpu.ownAddress → g.hops ≠ 0 → g.kind = 0x10 →
    (g.dest.toNat = s.rpu.ownAddress → exec (.frameReceived f) s = .next (s.closing (taken counted))) ∧
    (s.rpu.ownAddress ≠ 255 → g.dest = 255 → exec (.frameReceived f) s = .next (s.closing (taken (arbitrate
      (if s.rpu.outPort.link = .up ∧ s.rpu.forwardQ.length < 4 then
        { counted with rpu := { counted.rpu with
            forwardQ := s.rpu.forwardQ ++ [{ g with hops := g.hops - 1 }] } }
      else
        { counted with
          rpu := { counted.rpu with counters := { counted.rpu.counters with
            fwdDrop := min (s.rpu.counters.fwdDrop + 1) 65535 } }
          cdu := { s.cdu with latched := s.cdu.latched ||| (1#23 <<< 18) } })))))) ∧
  (∀ es : List SampleEntry, 1 ≤ es.length → es.length ≤ 16 →
    (∀ e ∈ es, e.channel ≤ 255 ∧ e.quality ≤ 255 ∧ -8388608 ≤ e.value ∧ e.value ≤ 8388607) →
    sampleEntries (byteOf es.length :: es.flatMap fun e =>
      [byteOf e.channel, byteOf e.quality] ++ leInt 3 e.value) = es) ∧
  (∀ payload : List Byte, (field payload 0 1 = 0 ∨ 16 < field payload 0 1 ∨
      payload.length ≠ 1 + 5 * field payload 0 1) → sampleEntries payload = [])

/-- One SAMPLE entry (R32 to R38): with no map entry of its node and channel it changes nothing; otherwise the map entry
changes as the first check that decides says. A quality other than GOOD, or a value out of the target's range (R27), is
faulted: held value, freshness and age stay, the jump count becomes 0. A FRESH zone sensor that departs by more than its
jump limit is held back the first two times in a row. Everything else is accepted, a binary target as its level, and judges
SENSOR_STALE. No other entry and no table changes. Each is one event (R41): a faulted or held-back reading is delivered to the
target's owner as a sensor fault, an accepted one as a reading with the edge of a binary target that was not NEVER and
whose level changed (R42). A zone's slot counts the fault and takes no action on a reading; a fault of a binary or ejector
signal but CLOSED, and of the scale, does nothing. What the other deliveries do is stated with their owners (`CureExits`,
`ScaleTimers`, `SequencerTimers`). An event that leaves both stations' permits and record numbers as they were, and no
target moved, adds nothing to its effect; where it changed a station's, that station's PERMIT is posted (R84, R106), with
both changed A's before B's (log 35). -/
def Obligations.SampleEntryJudged : Prop :=
  ∀ (node : Nat) (e : SampleEntry) (s : Block),
    (entryWithKey s node e.channel = none → sampleEntry node e s = s) ∧
    (∀ i c, entryWithKey s node e.channel = some i → (vget s.tab.map i).config = some c →
      let old := vget s.tab.map i
      let v : Int := if isBinary c.target then (if e.value = 0 then 0 else 1) else e.value
      let leaves (new : MapEntry) : Prop :=
        (sampleEntry node e s).tab = { s.tab with map := vset s.tab.map i new }
      let far := isZoneSensor c.target = true ∧ old.freshness = .fresh ∧ c.jumpLimit < (v - old.held).natAbs
      let put (new : MapEntry) : Block := { s with tab := { s.tab with map := vset s.tab.map i new } }
      let takes (b : Block) : Prop := sampleEntry node e s = event (fun _ => b) s
      let faulted : MapEntry := { old with quality := e.quality, jumps := 0 }
      let back : MapEntry := { old with quality := 0, jumps := old.jumps + 1, age := 0 }
      let fresh : MapEntry := { old with held := v, quality := 0, jumps := 0, freshness := .fresh, age := 0 }
      let edge : Edge := if isBinary c.target = true ∧ old.freshness ≠ .never ∧ old.held ≠ v then
          (if v = 1 then .rising else .falling)
        else .none
      ((e.quality ≠ 0 ∨ inRange c.target v = false) → leaves faulted ∧ takes (deliverFault c.target (put faulted))) ∧
      (e.quality = 0 → inRange c.target v = true → far → old.jumps < 2 →
        leaves back ∧ takes (deliverFault c.target (put back))) ∧
      (e.quality = 0 → inRange c.target v = true → (¬ far ∨ 2 ≤ old.jumps) → leaves fresh ∧
        ∀ stale : Bool, (stale = true ↔ ∃ j, (vget (put fresh).tab.map j).config ≠ none ∧
            (vget (put fresh).tab.map j).freshness = .stale) →
          takes (deliverReading c.target v edge (setLevel .sensorStale stale (put fresh))))) ∧
    (∀ (z : Fin 32) (sl : Slot) (st : Station) (sig : Signal) (v : Int) (edge : Edge),
      deliverFault (.zoneSensor z sl) s = countFault z sl s ∧ deliverReading (.zoneSensor z sl) v edge s = s ∧
      deliverFault .scaleRaw s = s ∧ deliverFault .scaleDone s = s ∧
      (sig ≠ .closed → sig ≠ .tonnage → deliverFault (.stationSignal st sig) s = s)) ∧
    (∀ b : Block,
      let kept (st : Station) : Prop := (stcOf b st).closeOk = (stcOf s st).closeOk ∧
        (stcOf b st).openOk = (stcOf s st).openOk ∧ permitRecord b st = permitRecord s st
      (∀ st, targetsHeld b st ∨ ((stcOf b st).state = (stcOf s st).state ∧ permitRecord b st = permitRecord s st)) →
        ((∀ st, kept st) → event (fun _ => b) s = b) ∧
        (∀ st, ¬ kept st → kept (otherStation st) → event (fun _ => b) s = postPermit st b) ∧
        (¬ kept .a → ¬ kept .b → event (fun _ => b) s = postPermit .b (postPermit .a b))) ∧
    (∀ (v : Int) (z : Fin 32) (sl : Slot) (st : Station),
      (inRange (.zoneSensor z sl) v = true ↔ -500 ≤ v ∧ v ≤ 4500) ∧
      (inRange .scaleRaw v = true ↔ -8388608 ≤ v ∧ v ≤ 8388607) ∧
      (inRange (.stationSignal st .tonnage) v = true ↔ 0 ≤ v ∧ v ≤ 60000) ∧
      (inRange (.stationSignal st .ejectPos) v = true ↔ 0 ≤ v ∧ v ≤ 30000) ∧
      (inRange (.stationSignal st .ejectForce) v = true ↔ 0 ≤ v ∧ v ≤ 20000) ∧
      (∀ t, isBinary t = true → inRange t (if v = 0 then 0 else 1) = true))

/-- SAMPLE_ENTRY_STALE (R39, R40): a FRESH entry goes STALE, keeping its held value and quality, its jump count 0;
SENSOR_STALE is present; no other entry and no table changes. The owner of its target takes a stale event: a zone's slot
counts the fault, saturating at 255, unless the zone is DISABLED (R92); CLOSED and TONNAGE are judged as at a fault (R75);
HOLD as at a reading without an edge (R160); OPENED and SCALE_DONE change nothing. What the others do is stated with their
owners: SCALE_RAW in `ScaleTimers` (the cleared window), EJECT_POS and EJECT_FORCE in `SequencerTimers`. The model's choices:
an expiry taken before the age stands at the freshness limit brings it there (log 2), and the expiry of an entry that is
empty or not FRESH, which cannot occur, changes nothing (log 3). -/
def Obligations.SampleEntryGoesStale : Prop :=
  ∀ (i : Fin 96) (s : State),
    let old := vget s.tab.map i
    let gone (c : MapConfig) : MapEntry := { old with freshness := .stale, jumps := 0, age := max old.age c.freshLimit }
    (∀ c, old.config = some c → old.freshness = .fresh →
      (∃ t, exec (.sampleEntryStale i) s = .next t ∧ t.pending = s.pending ∧
        t.tab = { s.tab with map := vset s.tab.map i (gone c) } ∧
        t.cdu.present.getLsbD 19 = true ∧ t.cdu.latched.getLsbD 19 = (s.cdu.latched.getLsbD 19 ||
          !s.cdu.present.getLsbD 19)) ∧
      (let put : Block :=
        setLevel .sensorStale true { s.toBlock with tab := { s.tab with map := vset s.tab.map i (gone c) } }
      exec (.sampleEntryStale i) s = .next (s.closing (event (fun _ => deliverStale c.target put) s.toBlock)) ∧
      (∀ z sl, c.target = .zoneSensor z sl → exec (.sampleEntryStale i) s = .next (s.closing (countFault z sl put))))) ∧
    ((old.config = none ∨ old.freshness ≠ .fresh) → exec (.sampleEntryStale i) s = .next (s.closing s.toBlock)) ∧
    (∀ (b : Block) (st : Station) (z : Fin 32) (sl : Slot),
      deliverStale (.zoneSensor z sl) b = countFault z sl b ∧ deliverStale .scaleDone b = b ∧
      deliverStale (.stationSignal st .opened) b = b ∧
      (∀ sig, sig = .closed ∨ sig = .tonnage →
        deliverStale (.stationSignal st sig) b = deliverFault (.stationSignal st sig) b) ∧
      (∀ v, deliverStale (.stationSignal st .hold) b = deliverReading (.stationSignal st .hold) v .none b)) ∧
    (∀ (z : Fin 32) (sl : Slot) (b : Block),
      let c := zoneOf b z
      (c.state = .disabled → countFault z sl b = b) ∧
      (c.state ≠ .disabled →
        countFault z sl b = modZone z (fun _ => match sl with
          | .zero => { c with faults0 := min (c.faults0 + 1) 255 }
          | .one => { c with faults1 := min (c.faults1 + 1) 255 }) b))

/-! ### Requests answered by the Management Agent, the RPU and the Condition Unit -/

/-- READ_ID (R184): vendor code 2A7h, part code 4820h, revision 3, own address. Nothing but the reply is done. -/
def Obligations.ReadIdAnswer : Prop :=
  ∀ (q : Sender) (s : State) (s1 : Block), takeRequest (mgmtRequest q 0x01 []) s.toBlock = some s1 →
    s1.mga.image ≠ .loading →
    exec (.readId q []) s = .next (s.closing (reply q 0x01 .ok
      [0xA7, 0x02, 0x20, 0x48, 0x03, BitVec.ofNat 8 s1.rpu.ownAddress] s1))

/-- READ_COUNTERS (R19, R20): the nine counters in their order, 2 bytes each; with the clear option all nine are then 0,
and the reply carries the values as they stood. An event that counts CRC_ERR latches FRAME_ERRORS, one that counts
FWD_DROP or REQ_DROP latches QUEUE_DROP. -/
def Obligations.ReadCountersAnswer : Prop :=
  ∀ (q : Sender) (s : State) (s1 : Block),
    let c := s1.rpu.counters
    let counted (f : Counters → Counters) (latched : BitVec 23) : Block :=
      { s1 with rpu := { s1.rpu with counters := f c }, cdu := { s1.cdu with latched := s1.cdu.latched ||| latched } }
    let body := [c.crcErr, c.returned, c.hopExpired, c.wrongKind, c.fwdDrop, c.disconnect, c.reqDrop, c.rxFrames,
      c.txFrames].flatMap (leBytes 2)
    countCrcErr s1 = counted (fun c => { c with crcErr := min (c.crcErr + 1) 65535 }) (1#23 <<< 17) ∧
    countFwdDrop s1 = counted (fun c => { c with fwdDrop := min (c.fwdDrop + 1) 65535 }) (1#23 <<< 18) ∧
    countReqDrop s1 = counted (fun c => { c with reqDrop := min (c.reqDrop + 1) 65535 }) (1#23 <<< 18) ∧
    (s1.mga.image ≠ .loading → takeRequest (mgmtRequest q 0x07 [0]) s.toBlock = some s1 →
      exec (.readCounters q) s = .next (s.closing (reply q 0x07 .ok body s1))) ∧
    (s1.mga.image ≠ .loading → takeRequest (mgmtRequest q 0x07 [1]) s.toBlock = some s1 →
      masterAdmits s1 q.src = true →
      exec (.readCountersClear q) s = .next (s.closing (reply q 0x07 .ok body
        { s1 with rpu := { s1.rpu with counters := zeroCounters } })))

/-- READ_CONDITIONS, CLEAR_CONDITIONS, SET_MASK and FORCE_CONDITION (R188). A clear takes the latch of each listed
condition whose level is absent, names those whose level keeps it in ascending order, and opens the gate; a number above
22 is BAD_INDEX and clears nothing. A mask set with bit 23 set is BAD_ENTRY. A forced condition is latched. -/
def Obligations.ConditionRequests : Prop :=
  ∀ (q : Sender) (s : State) (s1 : Block), s1.mga.image ≠ .loading →
    (takeRequest (mgmtRequest q 0x08 []) s.toBlock = some s1 →
      exec (.readConditions q []) s = .next (s.closing (reply q 0x08 .ok
        (leBytes 3 s1.cdu.present.toNat ++ leBytes 3 s1.cdu.latched.toNat ++ leBytes 3 s1.cdu.mask.toNat ++
          [if s1.cdu.gateOpen then 0 else 1]) s1))) ∧
    (masterAdmits s1 q.src = true →
      (∀ ks : List Byte, ks.length ≤ 117 →
        takeRequest (mgmtRequest q 0x09 (byteOf ks.length :: ks)) s.toBlock = some s1 →
        ((∃ k ∈ ks, 22 < k.toNat) → exec (.clearConditions q (byteOf ks.length :: ks)) s =
          .next (s.closing (reply q 0x09 .badIndex [] s1))) ∧
        ((∀ k ∈ ks, k.toNat ≤ 22) → ∃ (latched : BitVec 23) (left : List Nat),
          exec (.clearConditions q (byteOf ks.length :: ks)) s = .next (s.closing
            (reply q 0x09 .ok (byteOf left.length :: left.map byteOf)
              { s1 with cdu := { s1.cdu with latched := latched, gateOpen := true } })) ∧
          (∀ k, k < 23 → latched.getLsbD k =
            (s1.cdu.latched.getLsbD k && !(decide (byteOf k ∈ ks) && !s1.cdu.present.getLsbD k))) ∧
          left = (List.range 23).filter fun k =>
            decide (byteOf k ∈ ks) && s1.cdu.present.getLsbD k && s1.cdu.latched.getLsbD k)) ∧
      (∀ b0 b1 b2 : Byte, takeRequest (mgmtRequest q 0x0A [b0, b1, b2]) s.toBlock = some s1 →
        exec (.setMask q [b0, b1, b2]) s = .next (s.closing
          (if b2.getLsbD 7 then reply q 0x0A .badEntry [] s1
           else reply q 0x0A .ok [] { s1 with cdu := { s1.cdu with mask := (b2 ++ b1 ++ b0).setWidth 23 } }))) ∧
      (∀ k : Byte, takeRequest (mgmtRequest q 0x0B [k]) s.toBlock = some s1 →
        exec (.forceCondition q [k]) s = .next (s.closing
          (if 22 < k.toNat then reply q 0x0B .badIndex [] s1
           else reply q 0x0B .ok [] { s1 with cdu := { s1.cdu with
             latched := s1.cdu.latched ||| (1#23 <<< k.toNat) } }))))

/-- READ_STATUS (R185): selector 0 gives the station and sequencer parts, 1 the budget, scale and line parts, 2 the zone
parts; a range of zones past 31 is BAD_INDEX. HISTORY_SUMMARY (R180). Nothing but the reply is done. Whatever the state,
each part holds its fields in their order, widths and codes: the station part (R59, R85), the sequencer part (R147,
R167), the budget part (R122), the scale part (R135, R146), the line part (R185), the zone part (R86, R108; a DISABLED
zone at its reset values is all 0) and the summary (R180). The bodies have their sizes: 62 bytes of station and sequencer
parts, 58 of budget, scale and line parts, 16 for each zone of a range within 0..31, 71 of the summary, 18 of the counters
(R20). The peak force is that of the demould part of the open record, 0 where there is none (log 33). -/
def Obligations.StatusAnswers : Prop :=
  ∀ (q : Sender) (s : State) (s1 : Block), s1.mga.image ≠ .loading →
    (∀ x y : Byte,
      (takeRequest (mgmtRequest q 0x06 [0, x, y]) s.toBlock = some s1 →
        exec (.readStatus q [0, x, y]) s = .next (s.closing (reply q 0x06 .ok
          (stationPart s1 .a ++ stationPart s1 .b ++ sequencerPart s1 .a ++ sequencerPart s1 .b) s1))) ∧
      (takeRequest (mgmtRequest q 0x06 [1, x, y]) s.toBlock = some s1 →
        exec (.readStatus q [1, x, y]) s = .next (s.closing (reply q 0x06 .ok
          (budgetPart s1 ++ scalePart s1 ++ linePart s1) s1))) ∧
      (takeRequest (mgmtRequest q 0x06 [2, x, y]) s.toBlock = some s1 → 1 ≤ y.toNat → y.toNat ≤ 7 →
        exec (.readStatus q [2, x, y]) s = .next (s.closing
          (if 32 < x.toNat + y.toNat then reply q 0x06 .badIndex [] s1
           else reply q 0x06 .ok (zonesReport s1 x.toNat y.toNat) s1)))) ∧
    (takeRequest (mgmtRequest q 0x0E []) s.toBlock = some s1 →
      exec (.historySummary q []) s = .next (s.closing (reply q 0x0E .ok (summaryBody s1.hst) s1))) ∧
    (let le (xs : List (Nat × Nat)) : List Byte := xs.flatMap fun x => leBytes x.1 x.2
     let bit (k : Nat) (x : Bool) : Nat := if x = true then 2 ^ k else 0
     (∀ st,
        let c := stcOf s1 st
        let d := dmsOf s1 st
        let fig (f : Cycle → Nat) : Nat := match c.cycle with
          | some cy => f cy
          | none => 0
        stationPart s1 st = le
          [(1, stationStateCode c.state), (1, (c.bound.map fun i => i.val).getD 255),
           (1, bit 0 c.production + bit 1 c.deferredWake + bit 2 c.heatReady + bit 3 c.settle.isSome),
           (1, bit 0 c.closeOk + bit 1 c.openOk), (1, noCycleCode c.noCycle), (4, fig fun cy => cy.record),
           (2, fig (fun cy => cy.accrued) / 100), (4, fig (fun cy => cy.outOfBand) / 100),
           (4, fig (fun cy => cy.elapsed) / 100)] ∧
        sequencerPart s1 st = le
          [(1, seqStateCode d.state), (1, haltCauseCode d.cause), (1, d.stepPos), (1, d.mask.toNat), (1, d.retries),
           (1, d.stuck.toNat), (1, d.probeGroup.getD 255),
           (1, bit 0 d.abortPending + bit 1 d.scanFollows + 4 * probePhaseCode d.probePhase + bit 4 d.stepTimer.isSome +
             bit 5 d.dwellTimer.isSome + 64 * resumeCode d.resume),
           (2, d.retractPos.getD 65535), (2, peakForceOf s1 st)] ∧
        (∀ cy i r, c.cycle = some cy → openIn s1 i cy.record r →
          peakForceOf s1 st = (r.demould.map fun p => p.peakForce).getD 0) ∧
        (c.cycle = none → peakForceOf s1 st = 0)) ∧
     (let p := s1.pwa
      budgetPart s1 = le
        [(1, bit 0 p.pressure), (2, p.factor.c0), (2, p.factor.c1), (2, p.factor.c2), (4, p.load.c0), (4, p.load.c1),
         (4, p.load.c2), (4, p.capacity), (4, p.allowanceLoad)]) ∧
     (let u := s1.scu
      let claim (k : Nat) : Nat := ((u.claims[k]?).map stationNum).getD 255
      scalePart s1 = le
        [(1, (u.session.map fun v => sessionCode v.state).getD 0), (1, (u.session.map fun v => stationNum v.owner).getD 255),
         (1, (u.session.map fun v => v.attempts).getD 0), (1, claim 0), (1, claim 1),
         (1, bit 0 (decide (2 ^ s1.tab.line.windowCode ≤ u.window.length)) + bit 1 u.stable + bit 2 u.overload +
           bit 3 u.dwell.isSome + bit 4 u.loading.isSome + bit 5 (u.session.any fun v => v.nearSent) +
           bit 6 (u.session.any fun v => v.clearSent)),
         (1, u.window.length)] ++
        leInt 4 u.tare ++ leInt 4 (filteredNet s1) ++ leInt 4 (spreadOf s1) ++ leInt 4 (u.latestGross.getD 0)) ∧
     linePart s1 = le
       [(1, linkCode s1.rpu.inPort.link), (1, linkCode s1.rpu.outPort.link), (1, s1.rpu.forwardQ.length),
        (1, s1.rpu.controlQ.length), (1, s1.rpu.infoQ.length), (1, s1.mga.requests.length), (1, imageCode s1.mga.image),
        (1, s1.rpu.ownAddress)] ∧
     (∀ z,
        let c := zoneOf s1 z
        let usable := slotFresh s1 z c.slot
        ((∃ e, c = resetZone .disabled e) → zonePart s1 z = List.replicate 16 0) ∧
        (c.state ≠ .disabled → zonePart s1 z =
          le [(1, zoneStateCode c.state), (1, zoneCauseCode c.cause),
              (1, slotNum c.slot + bit 1 c.inBand + bit 2 usable + bit 3 c.blindHold.isSome)] ++
            leInt 2 c.wsp ++ leInt 2 (if usable = true then slotHeld s1 z c.slot else 0) ++ le [(2, c.r), (2, c.g)] ++
            leInt 3 c.iq ++ le [(1, c.faults0), (1, c.faults1)])) ∧
     (∀ z n, zonesReport s1 z n =
        ((List.finRange 32).filter fun k => decide (z ≤ k.val ∧ k.val < z + n)).flatMap fun k => zonePart s1 k) ∧
     (let h := s1.hst
      let code (i : Fin 48) : Nat := match vget h.slots i with
        | .free => 0
        | .held .opened _ => 1
        | .held .closed _ => 2
        | .held .sent _ => 3
      let count (k : Nat) : Nat := ((List.finRange 48).filter fun i => decide (code i = k)).length
      let nums : List Nat := (List.finRange 48).filterMap fun i => match vget h.slots i with
        | .free => none
        | .held _ r => some r.number
      let time : Stamp := h.lineTime.getD { sec := 0, ms := 0 }
      summaryBody h = le
        ([(1, count 0), (1, count 1), (1, count 2), (1, count 3), (4, nums.min?.getD 0), (4, nums.max?.getD 0),
          (4, h.counter.getD 0), (1, bit 0 h.lineTime.isSome + bit 1 h.collection.isSome), (4, time.sec), (2, time.ms)] ++
         (List.finRange 48).map fun i => (1, code i))) ∧
     [StationState.off, .standby, .preheat, .ready, .charging, .pressLoad, .curing, .opening, .demoulding, .held].map
       stationStateCode = List.range 10 ∧
     [NoCycle.none, .historyFull, .recordBaseUnset, .recipeInvalid].map noCycleCode = List.range 4 ∧
     [SeqState.idle, .stroking, .dwell, .retracting, .probing, .paused, .halted, .homing, .done].map seqStateCode =
       List.range 9 ∧
     [HaltCause.none, .stall, .stallUnlocated, .retractStall, .timeout, .sensor, .abort, .homeStall].map haltCauseCode =
       List.range 8 ∧
     [ProbePhase.none, .out, .back, .rest].map probePhaseCode = List.range 4 ∧
     [Resume.none, .step, .probe, .homing].map resumeCode = List.range 4 ∧
     [ZoneState.disabled, .off, .regulating, .blind, .fault].map zoneStateCode = List.range 5 ∧
     [ZoneCause.none, .overtemp, .sensorLost].map zoneCauseCode = List.range 3 ∧
     [SessionState.clearing, .loading, .settling, .accepted, .rejected].map sessionCode = [1, 2, 3, 4, 5] ∧
     [Link.down, .training, .up].map linkCode = List.range 3 ∧
     [ImageState.ready, .loading, .storing].map imageCode = List.range 3) ∧
    (stationPart s1 .a ++ stationPart s1 .b ++ sequencerPart s1 .a ++ sequencerPart s1 .b).length = 62 ∧
    (budgetPart s1 ++ scalePart s1 ++ linePart s1).length = 58 ∧
    (∀ z n, z + n ≤ 32 → (zonesReport s1 z n).length = 16 * n) ∧
    (summaryBody s1.hst).length = 71 ∧ (counterBytes s1.rpu.counters).length = 18

/-- TABLE_READ (R186), upward or downward: with every index in the table the reply is OK and carries the count and the
stored bytes of each entry; the first index outside stops it with BAD_INDEX and what was read. Nothing else is done. An
index is outside exactly when it is below 0 or not below the table's count, 32, 16, 64, 2, 1 and 96 by identifier (R43). An
entry is returned in its written layout (R45, R48, R50, R53, R54), a Sample Map entry with its nine configuration bytes
(R26) followed by its live state: freshness, held value, quality, age and jump count (R31). -/
def Obligations.TableReadAnswer : Prop :=
  ∀ (q : Sender) (t : TableId) (id start stepB count : Byte) (d : Int) (s : State) (s1 : Block),
    let body := [id, start, stepB, count]
    takeRequest (mgmtRequest q 0x03 body) s.toBlock = some s1 → s1.mga.image ≠ .loading →
    tableOf id.toNat = some t → stepByte stepB.toNat = some d → count.toNat * readSize t ≤ 116 →
    (∀ es : List (List Byte), es.length = count.toNat →
      (∀ k, k < count.toNat → readEntry s1 t ((start.toNat : Int) + k * d) = es[k]?) →
      exec (.tableRead q body) s = .next (s.closing (reply q 0x03 .ok (count :: es.flatten) s1))) ∧
    (∀ es : List (List Byte), es.length < count.toNat →
      (∀ k, k < es.length → readEntry s1 t ((start.toNat : Int) + k * d) = es[k]?) →
      readEntry s1 t ((start.toNat : Int) + es.length * d) = none →
      exec (.tableRead q body) s = .next (s.closing (reply q 0x03 .badIndex (byteOf es.length :: es.flatten) s1))) ∧
    (∀ i : Int, readEntry s1 t i = none ↔ (i < 0 ∨ (tableCount t : Int) ≤ i)) ∧
    [TableId.zone, .recipe, .step, .station, .line, .map].map tableCount = [32, 16, 64, 2, 1, 96] ∧
    (∀ z : Fin 32, readEntry s1 .zone z.val = some (zoneEntryBytes (vget s1.tab.zones z))) ∧
    (∀ k : Fin 16, readEntry s1 .recipe k.val = some (recipeBytes (vget s1.tab.recipes k))) ∧
    (∀ k : Fin 64, readEntry s1 .step k.val = some (stepEntryBytes (vget s1.tab.steps k))) ∧
    (∀ st, readEntry s1 .station (stationNum st) = some (stationEntryBytes (s1.tab.stations.get st))) ∧
    readEntry s1 .line 0 = some (lineBytes s1.tab.line) ∧
    (∀ k : Fin 96, let e := vget s1.tab.map k
      readEntry s1 .map k.val = some (mapConfigBytes e.config ++
        leBytes 1 (freshnessCode e.freshness) ++ leInt 3 e.held ++ leBytes 1 e.quality ++ leBytes 2 e.age ++
        leBytes 1 e.jumps)) ∧
    [Freshness.never, .fresh, .stale].map freshnessCode = [0, 1, 2]

/-! ### Station commands -/

/-- A station byte above 1 is BAD_INDEX for every station command (R60); nothing but the reply is done. -/
def Obligations.StationIndexRefused : Prop :=
  ∀ (q : Sender) (sb arg : Byte) (c : Instr) (r : Request) (s : State) (s1 : Block),
    c ∈ [.bindRecipe q sb arg, .wake q sb arg, .standby q sb arg, .off q sb arg, .produce q sb arg, .stop q sb arg,
      .abortCycle q sb arg, .zoneRecover q sb arg, .demouldRelease q sb arg, .demouldReset q sb arg] →
    requestOf c = some r → admitted r s.toBlock s1 → 1 < sb.toNat → answered c s q 0x04 .badIndex [] s1

/-- BIND_RECIPE (R61): NOT_ALLOWED in a cycle state, BAD_INDEX for a recipe above 15, BAD_ENTRY for a recipe whose chain
is not valid, in this order. Otherwise the recipe is bound; in PREHEAT and READY the station is then in PREHEAT with
heat-ready clear, NO_CYCLE absent (R69), and the settle timer stopped, or started with the new recipe where every
enabled zone is in band (R66). Every in-band zone of the station whose target is then another than the one it was last
judged at, the new recipe's setpoint with its offset (R90), or in OFF and STANDBY the standby setpoint, reports out of band
at once (R106), which leaves heat-ready clear and the settle timer stopped (R66, R67). Nothing else changes. -/
def Obligations.BindRecipe : Prop :=
  ∀ (q : Sender) (sb arg : Byte) (st : Station) (s : State) (s1 : Block),
    admitted (stationRequest q sb 1 arg) s.toBlock s1 → stationOf sb.toNat = some st →
    let c := stcOf s1 st
    let ends := answered (.bindRecipe q sb arg) s q 0x04
    (isCycleState c.state = true → ends .notAllowed [] s1) ∧
    (isCycleState c.state = false → 16 ≤ arg.toNat → ends .badIndex [] s1) ∧
    (∀ i : Fin 16, isCycleState c.state = false → arg.toNat = i.val →
      (chainOf s1 (vget s1.tab.recipes i) = none → ends .badEntry [] s1) ∧
      (chainOf s1 (vget s1.tab.recipes i) ≠ none → c.cycle = none → c.closeOk = false →
        let recipe := vget s1.tab.recipes i
        let heat : Bool := decide (c.state = .preheat ∨ c.state = .ready)
        let T (z : Fin 32) : Int :=
          if heat = true then max 0 (min ((match (entryOf s1 z).platen with
              | .upper => (recipe.upper : Int)
              | .lower => (recipe.lower : Int)) + (entryOf s1 z).offset) 4000)
          else (entryOf s1 z).standbySetpoint
        let out (z : Fin 32) : Bool :=
          decide (z ∈ zonesOf s1 st) && (zoneOf s1 z).inBand && decide (T z ≠ (zoneOf s1 z).lastTarget)
        let any : Bool := (List.finRange 32).any out
        ∃ b, ends .ok [] b ∧
          stcOf b st = { c with
            bound := some i, inBand := (stcOf b st).inBand
            state := if heat = true then .preheat else c.state
            noCycle := if heat = true then .none else c.noCycle
            heatReady := if heat = true ∨ any = true then false else c.heatReady
            settle := if any = true then none
              else if heat = true then
                (if allInBand s1 st = true then some { elapsed := 0, length := recipe.settle * 1000 } else none)
              else c.settle } ∧
          (∀ z, vget (stcOf b st).inBand z = (if out z = true then false else vget c.inBand z)) ∧
          (∀ z, zoneOf b z = { zoneOf s1 z with inBand := if out z = true then false else (zoneOf s1 z).inBand }) ∧
          stcOf b (otherStation st) = stcOf s1 (otherStation st) ∧
          b = { s1 with
            stc := b.stc, zrg := { s1.zrg with zones := b.zrg.zones }
            cdu := if heat = true then
                { s1.cdu with present := s1.cdu.present &&& ~~~(1#23 <<< (5 * stationNum st + 3)) }
              else s1.cdu }))

/-- WAKE (R62, R89, R90, R106, R118): NOT_ALLOWED unless the station is in OFF or STANDBY with a bound recipe and an enabled
zone; DEFERRED under budget pressure, with the deferred wake set; otherwise PREHEAT, with heat-ready clear and the settle
timer stopped or, with every enabled zone in band, started (R66), and each of its zones in OFF leaving OFF: REGULATING, with
the integral and the requested duty 0 and WSP the held value of its selected slot, else of the other slot where only that
one is FRESH, else 0. An in-band zone that was judged at another target than the recipe's is out of band at once, and its
report stops the settle timer again. Nothing else changes. -/
def Obligations.WakeCommand : Prop :=
  ∀ (q : Sender) (sb arg : Byte) (st : Station) (s : State) (s1 : Block),
    admitted (stationRequest q sb 2 arg) s.toBlock s1 → stationOf sb.toNat = some st →
    let c := stcOf s1 st
    let may := (c.state = .off ∨ c.state = .standby) ∧ c.bound ≠ none ∧ zonesOf s1 st ≠ []
    let ends := answered (.wake q sb arg) s q 0x04
    (¬ may → ends .notAllowed [] s1) ∧
    (may → s1.pwa.pressure = true → ends .deferred [] (modStc st (fun c => { c with deferredWake := true }) s1)) ∧
    (∀ i, may → s1.pwa.pressure = false → c.bound = some i → c.cycle = none → (noBand s1 st ∨ c.closeOk = false) →
      let T (z : Fin 32) : Int := max 0 (min ((match (entryOf s1 z).platen with
          | .upper => ((vget s1.tab.recipes i).upper : Int)
          | .lower => ((vget s1.tab.recipes i).lower : Int)) + (entryOf s1 z).offset) 4000)
      let out (z : Fin 32) : Bool :=
        decide (z ∈ zonesOf s1 st) && (zoneOf s1 z).inBand && decide (T z ≠ (zoneOf s1 z).lastTarget)
      ∃ b, ends .ok [] b ∧
        stcOf b st = { c with
          state := .preheat, heatReady := false, inBand := (stcOf b st).inBand
          settle := if allInBand s1 st = true ∧ (List.finRange 32).any out = false then
              some { elapsed := 0, length := (vget s1.tab.recipes i).settle * 1000 }
            else none } ∧
        (∀ z, vget (stcOf b st).inBand z = (if out z = true then false else vget c.inBand z)) ∧
        stcOf b (otherStation st) = stcOf s1 (otherStation st) ∧
        (∀ z, zoneOf b z =
          let k := zoneOf s1 z
          let k1 : Zone := { k with inBand := if out z = true then false else k.inBand }
          if c.state = .off ∧ z ∈ zonesOf s1 st ∧ k.state = .off then
            { k1 with
              state := .regulating, iq := 0, r := 0, blindHold := none
              wsp := if slotFresh s1 z k.slot = true then slotHeld s1 z k.slot
                else if slotFresh s1 z (otherSlot k.slot) = true then slotHeld s1 z (otherSlot k.slot)
                else 0 }
          else k1) ∧
        b = { s1 with stc := b.stc, zrg := { s1.zrg with zones := b.zrg.zones } })

/-- STANDBY and OFF (R64, R69, R89). STANDBY from OFF, PREHEAT or READY, and OFF from STANDBY, PREHEAT or READY: the
deferred wake is dropped, heat-ready cleared, the settle timer stopped, NO_CYCLE ended; from OFF the zones leave OFF, WSP
at the held value of the selected slot, else of the other slot where only that one is FRESH, else 0; an in-band zone last
judged at another target than its standby setpoint reports out of band (R90, R106). Into OFF each zone in REGULATING,
BLIND or FAULT is OFF with its duties, integral and allowance 0, its cause none and out of band, its duty of 0 posted while
OUT is UP, and no HEAT_FAULT of the station stays. In the state commanded only the deferred wake is dropped; in a cycle
state the command is NOT_ALLOWED. The ascending zone order of the posts is the model's choice (log 8). -/
def Obligations.StandbyAndOff : Prop :=
  ∀ (q : Sender) (sb arg : Byte) (st : Station) (s : State) (s1 : Block), stationOf sb.toNat = some st →
    let c := stcOf s1 st
    let drop := modStc st (fun c => { c with deferredWake := false }) s1
    let heat : BitVec 23 := 1#23 <<< (5 * stationNum st + 2)
    let ncyc : BitVec 23 := 1#23 <<< (5 * stationNum st + 3)
    (admitted (stationRequest q sb 3 arg) s.toBlock s1 →
      (c.state = .standby → answered (.standby q sb arg) s q 0x04 .ok [] drop) ∧
      (isCycleState c.state = true → answered (.standby q sb arg) s q 0x04 .notAllowed [] s1) ∧
      ((c.state = .preheat ∨ c.state = .ready ∨ c.state = .off) → c.closeOk = false → c.cycle = none →
        let out (z : Fin 32) : Bool := decide (z ∈ zonesOf s1 st) && (zoneOf s1 z).inBand &&
          decide (((entryOf s1 z).standbySetpoint : Int) ≠ (zoneOf s1 z).lastTarget)
        ∃ b, answered (.standby q sb arg) s q 0x04 .ok [] b ∧
          stcOf b st = { c with state := .standby, deferredWake := false, heatReady := false, settle := none
                                noCycle := .none, inBand := (stcOf b st).inBand } ∧
          (∀ z, vget (stcOf b st).inBand z = (if out z = true then false else vget c.inBand z)) ∧
          stcOf b (otherStation st) = stcOf s1 (otherStation st) ∧
          (∀ z, zoneOf b z =
            let k := zoneOf s1 z
            let k1 : Zone := { k with inBand := if out z = true then false else k.inBand }
            if c.state = .off ∧ z ∈ zonesOf s1 st ∧ k.state = .off then
              { k1 with
                state := .regulating, iq := 0, r := 0, blindHold := none
                wsp := if slotFresh s1 z k.slot = true then slotHeld s1 z k.slot
                  else if slotFresh s1 z (otherSlot k.slot) = true then slotHeld s1 z (otherSlot k.slot)
                  else 0 }
            else k1) ∧
          b = { s1 with stc := b.stc, zrg := { s1.zrg with zones := b.zrg.zones }
                        cdu := { s1.cdu with present := s1.cdu.present &&& ~~~ncyc } })) ∧
    (admitted (stationRequest q sb 4 arg) s.toBlock s1 →
      (c.state = .off → answered (.off q sb arg) s q 0x04 .ok [] drop) ∧
      (isCycleState c.state = true → answered (.off q sb arg) s q 0x04 .notAllowed [] s1) ∧
      ((c.state = .preheat ∨ c.state = .ready ∨ c.state = .standby) → c.closeOk = false →
        (s1.cdu.present &&& heat = 0 ↔ ∀ z ∈ zonesOf s1 st, (zoneOf s1 z).state ≠ .fault) →
        (∀ z ∈ zonesOf s1 st, (zoneOf s1 z).state ≠ .disabled ∧ (zoneOf s1 z).state ≠ .off) →
        ∃ b, answered (.off q sb arg) s q 0x04 .ok [] b ∧
          stcOf b st = { c with state := .off, deferredWake := false, heatReady := false, settle := none
                                noCycle := .none, inBand := (stcOf b st).inBand } ∧
          (∀ z ∈ zonesOf s1 st, (zoneOf s1 z).inBand = true → vget (stcOf b st).inBand z = false) ∧
          (∀ z, (z ∉ zonesOf s1 st ∨ (zoneOf s1 z).inBand = false) →
            vget (stcOf b st).inBand z = vget c.inBand z) ∧
          stcOf b (otherStation st) = stcOf s1 (otherStation st) ∧
          (∀ z, zoneOf b z =
            if z ∈ zonesOf s1 st then
              { zoneOf s1 z with state := .off, cause := .none, r := 0, g := 0, iq := 0, blindHold := none
                                 inBand := false }
            else zoneOf s1 z) ∧
          (∀ z, vget b.pwa.allowance z = if z ∈ zonesOf s1 st then 0 else vget s1.pwa.allowance z) ∧
          b = { s1 with
                stc := b.stc, zrg := { s1.zrg with zones := b.zrg.zones }
                pwa := { s1.pwa with allowance := b.pwa.allowance }
                rpu := { s1.rpu with
                  controlQ := if s1.rpu.outPort.link = .up then
                      (zonesOf s1 st).foldl (fun cq z =>
                        putDrive (enabledNodes s1) (entryOf s1 z).driveNode (entryOf s1 z).driveChannel 0 cq)
                        s1.rpu.controlQ
                    else s1.rpu.controlQ }
                cdu := { s1.cdu with present := s1.cdu.present &&& ~~~ncyc &&& ~~~heat } }))

/-- PRODUCE and STOP (R65, R68 to R70). STOP clears the production flag and ends NO_CYCLE. PRODUCE with the flag set
changes nothing and takes no test, also in READY (the model's reading of R65 against R68: log 42); outside READY it only sets the flag; in READY it sets it and takes the cycle-open test: HISTORY_FULL
before RECORD_BASE_UNSET before RECIPE_INVALID, each raising NO_CYCLE with its cause; else the cycle opens with the
counter's number n: the record stands OPEN in the slot taken, the station is CHARGING on a snapshot of recipe and step
list with its counts at zero, its PERMIT frame posted. The slot taken is the FREE slot of the lowest index, while the
counter stands above every number held (R169, R170); the step list is the chain from the recipe's first step by the next
fields to END, of 1 to 16 used steps without a repeat (R51, R57). Where a session is in progress the claim waits; with
none, and no other claim, it is granted at once (R134): on a scale that is not stable the session is in CLEARING; on a
stable one not empty CLEAR_SCALE is posted (R136); on an empty one it is in LOADING with attempt 1, the charge part PENDING
and the loading timer running (R137), NEAR_TARGET posted where its threshold is reached already (R138). Nothing of the
tables, the zones, the other station or the sequencers changes. The cycle-open test, the grant of the oldest claim and the
test of both stations are stated for every state, since other commands take them too; with both stations READY the one that
goes first is a free value (log 7). -/
def Obligations.ProduceAndStop : Prop :=
  (∀ (s : Block) (r : Recipe) (steps : List StepCopy), chainOf s r = some steps ↔
    ∃ path : List (Fin 64), path.head? = some r.firstStep ∧ path.length ≤ 16 ∧ path.Nodup ∧
      (∀ (k : Nat) i, path[k]? = some i →
        (vget s.tab.steps i).used = true ∧ (vget s.tab.steps i).next = path[k + 1]?) ∧
      steps = path.map fun i => (vget s.tab.steps i).copy) ∧
  (∀ (h : Hst) (i : Fin 48), h.counter ≠ some 0 → (availableSlot h = some i ↔
    vget h.slots i = .free ∧ (∀ j, j < i → vget h.slots j ≠ .free) ∧
      ∀ n j g r, h.counter = some n → vget h.slots j = .held g r → r.number < n)) ∧
  (∀ (x : Block) (st : Station),
    let c := stcOf x st
    let lacks (cause : NoCycle) : Block :=
      setLevel (.noCycle st) true (modStc st (fun c => { c with noCycle := cause }) x)
    ((c.state ≠ .ready ∨ c.production = false) → cycleOpenTest st x = x) ∧
    (c.state = .ready → c.production = true →
      (availableSlot x.hst = none → cycleOpenTest st x = lacks .historyFull) ∧
      (∀ i, availableSlot x.hst = some i →
        (x.hst.counter = none → cycleOpenTest st x = lacks .recordBaseUnset) ∧
        (∀ n, x.hst.counter = some n →
          ((c.bound = none ∨ ∃ k, c.bound = some k ∧ chainOf x (vget x.tab.recipes k) = none) →
            cycleOpenTest st x = lacks .recipeInvalid) ∧
          (∀ k steps, c.bound = some k → chainOf x (vget x.tab.recipes k) = some steps →
            cycleOpenTest st x = grantOldest (cycleOpened st k steps i n x)))))) ∧
  (∀ x : Block,
    ((x.scu.session ≠ none ∨ x.scu.claims = []) → grantOldest x = x) ∧
    (∀ o rest cy j w, x.scu.session = none → x.scu.claims = o :: rest → (stcOf x o).cycle = some cy →
      openIn x j cy.record w → grantOldest x = granted o cy j w x) ∧
    (¬ (stateOf x .a = .ready ∧ stateOf x .b = .ready) → testStations x = cycleOpenTest .b (cycleOpenTest .a x)) ∧
    (stateOf x .a = .ready → stateOf x .b = .ready →
      let first := Config.stationFirst x.choices
      testStations x = cycleOpenTest (otherStation first) (cycleOpenTest first { x with choices := x.choices + 1 }))) ∧
  ∀ (q : Sender) (sb arg : Byte) (st : Station) (s : State) (s1 : Block), stationOf sb.toNat = some st →
    let c := stcOf s1 st
    let made := modStc st (fun c => { c with production := true }) s1
    let fails (cause : NoCycle) := answered (.produce q sb arg) s q 0x04 .ok []
      (setLevel (.noCycle st) true (modStc st (fun c => { c with production := true, noCycle := cause }) s1))
    (admitted (stationRequest q sb 6 arg) s.toBlock s1 → answered (.stop q sb arg) s q 0x04 .ok []
      (setLevel (.noCycle st) false (modStc st (fun c => { c with production := false, noCycle := .none }) s1))) ∧
    (admitted (stationRequest q sb 5 arg) s.toBlock s1 →
      (c.production = true → answered (.produce q sb arg) s q 0x04 .ok [] s1) ∧
      (c.production = false → c.state ≠ .ready → answered (.produce q sb arg) s q 0x04 .ok [] made) ∧
      (c.production = false → c.state = .ready →
        answered (.produce q sb arg) s q 0x04 .ok [] (event (fun _ => cycleOpenTest st made) s1) ∧
        (availableSlot s1.hst = none → fails .historyFull) ∧
        (∀ i, availableSlot s1.hst = some i →
          (s1.hst.counter = none → fails .recordBaseUnset) ∧
          (∀ n, s1.hst.counter = some n →
            ((c.bound = none ∨ ∃ k, c.bound = some k ∧ chainOf s1 (vget s1.tab.recipes k) = none) →
              fails .recipeInvalid) ∧
            (∀ k steps, c.bound = some k → chainOf s1 (vget s1.tab.recipes k) = some steps → c.cycle = none →
              targetsHeld s1 st → (s1.scu.session ≠ none ∨ s1.scu.claims = []) →
              let r := vget s1.tab.recipes k
              let fresh (x : SessionState) (attempts : Nat) (near clear : Bool) : Session :=
                { owner := st, state := x, attempts := attempts, target := r.target, tolLow := r.tolLow, tolHigh := r.tolHigh
                  early := r.early, maxAttempts := r.maxAttempts, nearSent := near, clearSent := clear }
              let posted (b : Block) (notice : Notice) (attempt : Nat) : Prop := s1.rpu.outPort.link = .up →
                .weigh s1.tab.line.robot { station := st, notice := notice, attempt := attempt, cause := .none
                                           weight := filteredNet s1 } ∈ b.rpu.controlQ
              let near : Bool := decide (((r.target * r.early / 1000 : Nat) : Int) ≤ filteredNet s1)
              ∃ b, answered (.produce q sb arg) s q 0x04 .ok [] b ∧
                stcOf b st = { c with
                  production := true, state := .charging, noCycle := .none
                  refresh := some { elapsed := 0, length := (s1.tab.stations.get st).refresh }
                  cycle := some { record := n, recipeIndex := k, recipe := r, steps := steps
                                  waitRunning := false, chargeWait := 0, accruing := false, accrued := 0
                                  accrualUp := false, outCounting := false, outOfBand := 0, elapsedRunning := false
                                  elapsed := 0, peakTonnage := 0 } } ∧
                (s1.rpu.outPort.link = .up →
                  .permit st (s1.tab.stations.get st).pressNode c.closeOk c.openOk n ∈ b.rpu.controlQ) ∧
                stcOf b (otherStation st) = stcOf s1 (otherStation st) ∧
                vget b.hst.slots i = .held .opened
                  { number := n, station := st, recipeIndex := k, revision := r.revision
                    verdict := .good, flags := 0, openedAt := s1.hst.lineTime, closedAt := none, weighedAt := none
                    charge := if s1.scu.session = none ∧ s1.scu.claims = [] ∧ scaleEmpty s1 = true then
                        some { attempts := 1, status := .pending, weight := 0, wait := 0 } else none
                    cure := none, demould := none } ∧
                (∀ j, j ≠ i → vget b.hst.slots j = vget s1.hst.slots j) ∧
                b.hst = { s1.hst with slots := b.hst.slots, order := s1.hst.order ++ [i]
                                      counter := some (if n = 4294967295 then 1 else n + 1) } ∧
                (s1.scu.session ≠ none → b.scu = { s1.scu with claims := s1.scu.claims ++ [st] }) ∧
                (s1.scu.session = none → s1.scu.claims = [] →
                  (s1.scu.stable = false → b.scu = { s1.scu with session := some (fresh .clearing 0 false false) }) ∧
                  (s1.scu.stable = true → (s1.tab.line.emptyLimit : Int) < filteredNet s1 →
                    b.scu = { s1.scu with session := some (fresh .clearing 0 false true) } ∧ posted b .clearScale 0) ∧
                  (s1.scu.stable = true → filteredNet s1 ≤ s1.tab.line.emptyLimit →
                    b.scu = { s1.scu with
                      session := some (fresh .loading 1 near false), dwell := none
                      loading := some { elapsed := 0, length := s1.tab.line.maxLoading * 1000 } } ∧
                    (near = true → posted b .nearTarget 1))) ∧
                b.rpu = { s1.rpu with controlQ := b.rpu.controlQ } ∧ b.cdu.mask = s1.cdu.mask ∧
                b.cdu.gateOpen = s1.cdu.gateOpen ∧
                b.tab = s1.tab ∧ b.zrg = s1.zrg ∧ b.pwa = s1.pwa ∧ b.dms = s1.dms ∧ b.mga = s1.mga)))))

/-- ABORT_CYCLE (R64, R73, R76, R82 to R84, R135, R144, R162): NOT_ALLOWED outside a cycle and in HELD. Everywhere else the
record is flagged ABORTED. CURING ends in OPENING with OPEN_OK, the cure written, OUT_OF_BAND flagged where the out-of-band
time is past the allowance (log 27). OPENING goes on. In DEMOULDING the running sequencer's abort waits; a PAUSED one halts
with ABORT, its resume action kept, the station HELD; with an abort already waiting nothing more happens. In CHARGING and
PRESS_LOAD the cycle closes: PRESS_LOAD with an accepted charge posts DISCARD; the claim is withdrawn, or a session of its
own ends, the charge part of an attempt begun CANCELLED with weight 0, and the oldest claim is granted before the close; a
running charge wait is written; the record is CLOSED as ABORTED with its closing time, HISTORY_HIGH judged, the accepted
charge none, both permits clear, CYCLE_CLOSED latched, and the station READY with heat-ready, else PREHEAT, its settle timer
started when all its zones are in band. Then, in the same event, a READY station in production takes the cycle-open test
(`ProduceAndStop`). Where no cycle opens and no target moves, the PERMIT is posted with both permits clear and record 0.
That DISCARD is posted before the notices of the claim granted next is the model's reading (log 19), and so
is that the stable dwell timer stops with a session in LOADING (log 43). Nothing else changes. -/
def Obligations.AbortCycle : Prop :=
  ∀ (q : Sender) (sb arg : Byte) (st : Station) (s : State) (s1 : Block),
    admitted (stationRequest q sb 7 arg) s.toBlock s1 → stationOf sb.toNat = some st →
    let c := stcOf s1 st
    let d := dmsOf s1 st
    let ends := answered (.abortCycle q sb arg) s q 0x04
    let flagged (r : Record) : Record := { r with flags := r.flags ||| 1 }
    ((isCycleState c.state = false ∨ c.state = .held) → ends .notAllowed [] s1) ∧
    (∀ cy i r, c.cycle = some cy → openIn s1 i cy.record r → targetsHeld s1 st →
      (c.state = .opening → ends .ok [] (writes i (flagged r) s1)) ∧
      (c.state = .demoulding → d.abortPending = true → ends .ok [] (writes i (flagged r) s1)) ∧
      (c.state = .demoulding → d.abortPending = false → d.state = .paused →
        ends .ok [] (haltedAt st .abort 0 d.resume (writes i (flagged r) s1))) ∧
      (c.state = .demoulding → d.abortPending = false → d.state ≠ .paused →
        ends .ok [] (modDms st (fun d => { d with abortPending := true }) (writes i (flagged r) s1))) ∧
      (c.state = .curing →
        let cured : Record := { r with
          flags := if cy.recipe.allowance * 1000 < cy.outOfBand ∨ (cy.outCounting = true ∧ cy.recipe.allowance = 0) then
              r.flags ||| 1 ||| 64 else r.flags ||| 1
          cure := r.cure.map fun p => { p with accrued := cy.accrued / 100, outOfBand := cy.outOfBand / 100
                                               peakTonnage := cy.peakTonnage } }
        let y : Block := writes i cured (modStc st (fun c => { c with
          state := .opening, openOk := true
          cycle := some { cy with accruing := false, accrualUp := false, outCounting := false, elapsedRunning := false } })
          s1)
        ends .ok [] (if c.openOk = true then y else postPermit st y))) ∧
    (∀ cy i r, mayClose st cy i r s1 →
      let closes (cut : Bool) (x : Block) : Prop :=
        let y := cycleClosed st cy i (r.aborted cut) x
        ends .ok [] (event (fun _ => cycleOpenTest st y) s1) ∧ (staysClosed st cy s1 → ends .ok [] (postPermit st y))
      let x := discarded st s1
      ((∀ u, s1.scu.session = some u → u.owner ≠ st) → closes false { x with scu := unclaimed st s1.scu }) ∧
      (∀ u, s1.scu.session = some u → u.owner = st →
        (s1.scu.claims = [] → closes (isAttempt u) { x with scu := sessionless s1.scu }) ∧
        (∀ o rest cy' j w, s1.scu.claims = o :: rest → (stcOf s1 o).cycle = some cy' → openIn s1 j cy'.record w →
          cy'.record ≠ cy.record →
          closes (isAttempt u) (granted o cy' j w { x with scu := sessionless s1.scu }))))

/-- ZONE_RECOVER (R60, R94, R104): BAD_INDEX for a zone above 31; NOT_ALLOWED for a zone of the other station, one not in
FAULT, one with no FRESH slot, or one whose PV is above its limit less 50. With its selected slot FRESH and PV at most
that, the zone is REGULATING with its cause none, integral and duty 0 and WSP at PV, and HEAT_FAULT stands exactly while
another enabled zone of the station is in FAULT. Nothing else changes. Where only the other slot is FRESH, it is selected
first, with a new scan window, and in CURING the record is flagged SENSOR_SWITCHED (R94); the switch and the flag stand even
where the recovery is then refused. -/
def Obligations.ZoneRecover : Prop :=
  ∀ (q : Sender) (sb arg : Byte) (st : Station) (s : State) (s1 : Block),
    admitted (stationRequest q sb 8 arg) s.toBlock s1 → stationOf sb.toNat = some st →
    let ends := answered (.zoneRecover q sb arg) s q 0x04
    (32 ≤ arg.toNat → ends .badIndex [] s1) ∧
    (∀ z : Fin 32, arg.toNat = z.val →
      let c := zoneOf s1 z
      let e := entryOf s1 z
      let heat (b : Block) : Block :=
        setLevel (.heatFault st) (decide (∃ w ∈ zonesOf s1 st, w ≠ z ∧ (zoneOf s1 w).state = .fault)) b
      let well (pv : Int) (c : Zone) : Zone :=
        { c with state := .regulating, cause := .none, iq := 0, r := 0, wsp := pv }
      let moved : Zone := { c with slot := otherSlot c.slot, faults0 := 0, faults1 := 0, windowPos := 0
                                   windowLen := e.scanWindow, windowMargin := e.switchMargin }
      (e.station ≠ st → ends .notAllowed [] s1) ∧
      (e.station = st → c.state ≠ .fault → ends .notAllowed [] s1) ∧
      (e.station = st → c.state = .fault → slotFresh s1 z .zero = false → slotFresh s1 z .one = false →
        ends .notAllowed [] s1) ∧
      (e.station = st → c.state = .fault → slotFresh s1 z c.slot = true →
        ((e.overtempLimit : Int) - 50 < slotHeld s1 z c.slot → ends .notAllowed [] s1) ∧
        (slotHeld s1 z c.slot ≤ (e.overtempLimit : Int) - 50 →
          ends .ok [] (heat (modZone z (well (slotHeld s1 z c.slot)) s1)))) ∧
      (e.station = st → c.state = .fault → slotFresh s1 z c.slot = false →
        slotFresh s1 z (otherSlot c.slot) = true →
        let ending (x : Block) : Prop :=
          ((e.overtempLimit : Int) - 50 < slotHeld s1 z (otherSlot c.slot) →
            ends .notAllowed [] (modZone z (fun _ => moved) x)) ∧
          (slotHeld s1 z (otherSlot c.slot) ≤ (e.overtempLimit : Int) - 50 →
            ends .ok [] (heat (modZone z (fun _ => well (slotHeld s1 z (otherSlot c.slot)) moved) x)))
        ((stcOf s1 st).state ≠ .curing → ending s1) ∧
        (∀ cy i r, (stcOf s1 st).state = .curing → (stcOf s1 st).cycle = some cy → openIn s1 i cy.record r →
          ending (writes i { r with flags := r.flags ||| (1#16 <<< 9) } s1))))

/-- DEMOULD_RELEASE and DEMOULD_RESET (R81, R148, R149, R154, R157, R161, R163 to R165): NOT_ALLOWED outside HELD. Both take
the station back to DEMOULDING, end STATION_HELD, and clear the halt's stuck mask and cause. A release after a halt whose
cause unites no stuck groups resumes: step issues the current step again with the working mask, homing homes, probe begins
the probe under way again with its group out of the groups found. After a stall it takes the stuck groups out of the mask,
and issues the step with what is left and no retries, or, with none left, counts it as skipped and passes the boundary. A
reset flags the record DEMOULD_INCOMPLETE and homes all groups to position 0. Each order needs both ejector signals FRESH;
else the sequencer halts again with SENSOR and the station is HELD again. That both clear the resume action is the model's
choice (log 21). -/
def Obligations.DemouldReleaseAndReset : Prop :=
  ∀ (q : Sender) (sb arg : Byte) (st : Station) (s : State) (s1 : Block), stationOf sb.toNat = some st →
    let c := stcOf s1 st
    let d := dmsOf s1 st
    let back : Block := { modStc st (fun c => { c with state := .demoulding })
        (modDms st (fun d => { d with stuck := 0, cause := .none, resume := .none }) s1) with
      cdu := { s1.cdu with present := s1.cdu.present &&& ~~~(1#23 <<< (5 * stationNum st)) } }
    (admitted (stationRequest q sb 9 arg) s.toBlock s1 → c.state ≠ .held →
      answered (.demouldRelease q sb arg) s q 0x04 .notAllowed [] s1) ∧
    (admitted (stationRequest q sb 10 arg) s.toBlock s1 → c.state ≠ .held →
      answered (.demouldReset q sb arg) s q 0x04 .notAllowed [] s1) ∧
    (c.state = .held → targetsHeld s1 st → ∀ cy last i r, c.cycle = some cy → cy.steps.getLast? = some last →
      openIn s1 i cy.record r →
      (admitted (stationRequest q sb 9 arg) s.toBlock s1 → ∀ (n : Nat) p, d.stepPos = n + 1 → cy.steps[n]? = some p →
        let ends := answered (.demouldRelease q sb arg) s q 0x04 .ok []
        let unites := d.cause = .stall ∨ d.cause = .stallUnlocated ∨ d.cause = .retractStall
        let m := d.mask &&& ~~~d.stuck
        let left (x : Block) : Block := modDms st (fun d => { d with mask := m, retries := 0 }) x
        (¬ unites → d.resume = .step → ends (issued st p d.mask back)) ∧
        (¬ unites → d.resume = .homing → ends (homed st last back)) ∧
        (∀ g, ¬ unites → d.resume = .probe → d.probeGroup = some g →
          ends (probed st p g .out (min 30000 (d.retractPos.getD 0 + cy.recipe.scanTravel))
            (max 1 (p.ceiling * cy.recipe.scanForce / 100))
            (modDms st (fun d => { d with probeStuck := d.probeStuck &&& ~~~(1#8 <<< g) }) back))) ∧
        (unites → m ≠ 0 → ends (issued st p m (left back))) ∧
        (unites → m = 0 → ends (passed st cy.steps last d.stepPos
          (writes i (r.demoulded fun p => { p with skipped := min (p.skipped + 1) 255 }) (left back))))) ∧
      (admitted (stationRequest q sb 10 arg) s.toBlock s1 →
        answered (.demouldReset q sb arg) s q 0x04 .ok []
          (homed st last (modDms st (fun d => { d with probeGroup := none, probePhase := .none, scanFollows := false })
            (writes i { r with flags := r.flags ||| (1#16 <<< 5) } back)))))

/-! ### Scale commands -/

/-- TARE and ZERO (R126, R128, R131, R132): BUSY while a session is LOADING or SETTLING. TARE needs a full window and
makes the filtered gross weight the tare; the net weights held fall by what the tare rises. ZERO needs a stable scale
with the filtered gross at most 2 % of the capacity and makes the rounded mean of the raw counts held the scale zero;
where that changes it, the window is cleared. Nothing else changes. -/
def Obligations.TareAndZero : Prop :=
  ∀ (q : Sender) (sb : Byte) (s : State) (s1 : Block),
    let u := s1.scu
    let n := 2 ^ s1.tab.line.windowCode
    let busy := ∃ v, u.session = some v ∧ (v.state = .loading ∨ v.state = .settling)
    let mean (xs : List Int) : Int := (xs.sum + (n / 2 : Nat)) / (n : Int)
    let gross : Int :=
      (if n ≤ u.window.length then mean (u.window.map (·.net)) else ((u.window.map (·.net)).getLast?).getD 0) + u.tare
    let zero := mean (u.window.map (·.raw))
    (admitted (scaleRequest q 1 sb) s.toBlock s1 →
      (busy → answered (.tare q sb) s q 0x05 .busy [] s1) ∧
      (¬ busy → u.window.length < n → answered (.tare q sb) s q 0x05 .notAllowed [] s1) ∧
      (¬ busy → n ≤ u.window.length → answered (.tare q sb) s q 0x05 .ok []
        { s1 with scu := { u with
            tare := gross, window := u.window.map fun e => { e with net := e.net - (gross - u.tare) } } })) ∧
    (admitted (scaleRequest q 2 sb) s.toBlock s1 →
      (busy → answered (.zero q sb) s q 0x05 .busy [] s1) ∧
      (¬ busy → u.stable = false → answered (.zero q sb) s q 0x05 .notAllowed [] s1) ∧
      (¬ busy → u.stable = true → s1.tab.line.capacity < gross.natAbs * 50 →
        answered (.zero q sb) s q 0x05 .notAllowed [] s1) ∧
      (¬ busy → u.stable = true → gross.natAbs * 50 ≤ s1.tab.line.capacity →
        (zero = s1.tab.line.zero → answered (.zero q sb) s q 0x05 .ok [] s1) ∧
        (zero ≠ s1.tab.line.zero → answered (.zero q sb) s q 0x05 .ok []
          { s1 with tab := { s1.tab with line := { s1.tab.line with zero := zero } }
                    scu := { u with window := [], stable := false, dwell := none } })))

/-- CANCEL (R71, R82, R83, R133 to R135, R144): BAD_INDEX for a station byte other than 0, 1 and 255; NOT_ALLOWED where no
station named has a session or a waiting claim. A station named, in CHARGING or PRESS_LOAD, with a claim waiting or the
session its own, loses it, and its cycle closes as ABORTED, as `AbortCycle` states the close: the charge part of an attempt
begun is CANCELLED with weight 0; from PRESS_LOAD with an accepted charge DISCARD is posted; a READY station in production
then takes the cycle-open test (`ProduceAndStop`). Where the session ends, the oldest claim left is granted last, at the end
of the command: on an empty scale its first attempt begins, on a settled loaded one CLEAR_SCALE is posted, else it is in
CLEARING (`ProduceAndStop`). With both named, the claim is withdrawn and its cycle closes first, as an event of its own, and
nothing is granted in between (the events' order is the model's choice, log 18; the arbiter's decision after each event is
its reading, log 5; so is that the stable dwell timer stops with a session in LOADING, log 43). Where no cycle opens and no target moves, each PERMIT is posted with both permits clear and record 0.
Nothing else changes. -/
def Obligations.CancelCommand : Prop :=
  ∀ (q : Sender) (sb : Byte) (s : State) (s1 : Block), admitted (scaleRequest q 3 sb) s.toBlock s1 →
    let ends := answered (.cancel q sb) s q 0x05
    let named (st : Station) : Prop := sb = 255 ∨ stationOf sb.toNat = some st
    let owns (st : Station) : Prop := ∃ u, s1.scu.session = some u ∧ u.owner = st
    let waits (st : Station) : Prop := st ∈ s1.scu.claims
    let alone (st : Station) : Prop := sb = 255 → ¬ owns (otherStation st) ∧ ¬ waits (otherStation st)
    let gone (st : Station) (cy : Cycle) (i : Fin 48) (r : Record) (cut : Bool) (scu : Scu) (x : Block) : Block :=
      cycleClosed st cy i (r.aborted cut) { discarded st x with scu := scu }
    let withdrawn (st : Station) (cy : Cycle) (i : Fin 48) (r : Record) (x : Block) : Block :=
      arbitrate (event (fun _ => cycleOpenTest st (gone st cy i r false (unclaimed st x.scu) x)) x)
    let ended (st : Station) (cy : Cycle) (i : Fin 48) (r : Record) (u : Session) (x : Block) : Block :=
      arbitrate (event (fun _ =>
        grantOldest (cycleOpenTest st (gone st cy i r (isAttempt u) (sessionless (unclaimed st x.scu)) x))) x)
    (sb ≠ 0 → sb ≠ 1 → sb ≠ 255 → ends .badIndex [] s1) ∧
    ((sb = 0 ∨ sb = 1 ∨ sb = 255) → (∀ st, named st → ¬ owns st ∧ ¬ waits st) → ends .notAllowed [] s1) ∧
    (∀ st cy i r, named st → alone st → mayClose st cy i r s1 →
      (waits st → ¬ owns st → ends .ok [] (withdrawn st cy i r s1)) ∧
      (∀ u, s1.scu.session = some u → u.owner = st → ¬ waits st → ends .ok [] (ended st cy i r u s1))) ∧
    (∀ st cy' i' r' cy i r u, sb = 255 → s1.scu.session = some u → u.owner = st → waits (otherStation st) → ¬ waits st →
      mayClose (otherStation st) cy' i' r' s1 →
      let b := withdrawn (otherStation st) cy' i' r' s1
      mayClose st cy i r b → ends .ok [] (ended st cy i r u b)) ∧
    (∀ (x : Block) st cy i r, mayClose st cy i r x → staysClosed st cy x →
      withdrawn st cy i r x = arbitrate (postPermit st (gone st cy i r false (unclaimed st x.scu) x)) ∧
      (∀ u, x.scu.session = some u → u.owner = st →
        let y := gone st cy i r (isAttempt u) (sessionless (unclaimed st x.scu)) x
        ((unclaimed st x.scu).claims = [] → ended st cy i r u x = arbitrate (postPermit st y)) ∧
        (∀ rest cy' j w, (unclaimed st x.scu).claims = otherStation st :: rest →
          (stcOf x (otherStation st)).cycle = some cy' → openIn x j cy'.record w → cy'.record ≠ cy.record →
          ended st cy i r u x = arbitrate (postPermit st (granted (otherStation st) cy' j w y)))))

/-! ### History requests -/

/-- SET_RECORD_BASE (R171) and SET_TIME (R172). A base of 0 is BAD_ENTRY; an OPEN record, or a base not above every
number held, NOT_ALLOWED; otherwise the counter takes it, RECORD_BASE_UNSET ends, and each READY station in production takes the
cycle-open test (R68, `ProduceAndStop`); with none nothing else happens. Milliseconds above 999 are BAD_ENTRY; otherwise line time
takes the value and is valid. -/
def Obligations.RecordBaseAndTime : Prop :=
  ∀ (q : Sender) (b0 b1 b2 b3 b4 b5 : Byte) (s : State) (s1 : Block),
    let n := b0.toNat + 256 * b1.toNat + 65536 * b2.toNat + 16777216 * b3.toNat
    let ms := b4.toNat + 256 * b5.toNat
    (admitted (mgmtRequest q 0x0C [b0, b1, b2, b3]) s.toBlock s1 →
      let ends := answered (.setRecordBase q [b0, b1, b2, b3]) s q 0x0C
      let opened := ∃ i r, vget s1.hst.slots i = .held .opened r
      (n = 0 → ends .badEntry [] s1) ∧
      (n ≠ 0 → opened → ends .notAllowed [] s1) ∧
      (n ≠ 0 → (∃ i h r, vget s1.hst.slots i = .held h r ∧ n ≤ r.number) → ends .notAllowed [] s1) ∧
      (n ≠ 0 → ¬ opened → (∀ i h r, vget s1.hst.slots i = .held h r → r.number < n) →
        let based : Block := { s1 with hst := { s1.hst with counter := some n }
                                       cdu := { s1.cdu with present := s1.cdu.present &&& ~~~(1#23 <<< 20) } }
        ends .ok [] (event (fun _ => testStations based) s1) ∧
        ((∀ st, (stcOf s1 st).state = .ready → (stcOf s1 st).production = false) →
          ¬ (stateOf s1 .a = .ready ∧ stateOf s1 .b = .ready) → ends .ok [] based))) ∧
    (admitted (mgmtRequest q 0x0D [b0, b1, b2, b3, b4, b5]) s.toBlock s1 →
      let ends := answered (.setTime q [b0, b1, b2, b3, b4, b5]) s q 0x0D
      (999 < ms → ends .badEntry [] s1) ∧
      (ms ≤ 999 → ends .ok [] { s1 with hst := { s1.hst with lineTime := some { sec := n, ms := ms } } }))

/-- COLLECT and PART_FRAME_JOIN (R18, R176, R177, R181). A count of 0 or above 8 is BAD_ENTRY, a collection in progress BUSY.
With nothing CLOSED or SENT the reply comes at once with three zeros. Otherwise the collection holds the numbers of the
oldest records in record order, and its PART frames are offered at once, as by PART_FRAME_JOIN; with room denied it waits.
A PART frame joins while fewer than 12 frames are held and no EVENT frame waits: its record is SENT and leaves the
selection, HISTORY_HIGH is judged, and the next is offered; the last of a selection ends the collection with the reply:
count, first and last number. A PART payload carries its record as R25 lays it out: the presence byte, the fixed part, then
the parts present in their order, the weighed-at time only with the charge part, the accepted weight 0 unless ACCEPTED. That
frames join one after another in one event, and that a waiting EVENT frame keeps every PART frame out of the COLLECT's own
event too, is the model's reading (log 17); that a count out of range is judged before a collection in progress, too (log
39). -/
def Obligations.CollectAndParts : Prop :=
  ∀ (q : Sender) (n : Byte) (s : State) (s1 : Block),
    let denied (b : Block) : Prop :=
      12 ≤ b.rpu.infoQ.length ∨ (b.cdu.gateOpen = true ∧ b.cdu.latched &&& ~~~b.cdu.mask ≠ 0)
    (admitted (mgmtRequest q 0x0F [n]) s.toBlock s1 →
      let oldest := ((s1.hst.order.filter fun i => isCollectable (vget s1.hst.slots i)).map fun i =>
        slotNumber (vget s1.hst.slots i)).take n.toNat
      let begun : Block := { s1 with hst := { s1.hst with
        collection := some { selection := oldest, requester := q, placed := 0, first := 0, last := 0 } } }
      ((n = 0 ∨ 8 < n.toNat) → answered (.collect q [n]) s q 0x0F .badEntry [] s1) ∧
      (n ≠ 0 → n.toNat ≤ 8 → s1.hst.collection ≠ none → answered (.collect q [n]) s q 0x0F .busy [] s1) ∧
      (n ≠ 0 → n.toNat ≤ 8 → s1.hst.collection = none → oldest = [] →
        answered (.collect q [n]) s q 0x0F .ok [0, 0, 0, 0, 0, 0, 0, 0, 0] s1) ∧
      (n ≠ 0 → n.toNat ≤ 8 → s1.hst.collection = none → oldest ≠ [] →
        (denied s1 → exec (.collect q [n]) s = .next (s.closing begun)) ∧
        (¬ denied s1 → exec (.collect q [n]) s = exec .partFrameJoin { s with toBlock := begun }))) ∧
    (denied s.toBlock → exec .partFrameJoin s = .next (s.closing s.toBlock)) ∧
    (∀ (c : Collection) (i : Fin 48) (h : Holding) (r : Record) (rest : List Nat),
      s.hst.collection = some c → c.selection = r.number :: rest → vget s.hst.slots i = .held h r → h ≠ .opened →
      (∀ j, j ≠ i → slotNumber (vget s.hst.slots j) ≠ r.number) → ¬ denied s.toBlock →
      let part : InfoFrame := { dest := c.requester.src, kind := 0x50, payload := partPayload r }
      let first := if c.placed = 0 then r.number else c.first
      let placed (left : Option Collection) : Block := setLevel .historyHigh
        (decide (s.tab.line.watermark ≤ countSlots isCollectable s.hst))
        { s.toBlock with
          rpu := { s.rpu with infoQ := s.rpu.infoQ ++ [part] }
          hst := { s.hst with slots := vset s.hst.slots i (.held .sent r), collection := left } }
      let next := placed (some { c with selection := rest, placed := c.placed + 1, first := first, last := r.number })
      (rest ≠ [] → denied next → exec .partFrameJoin s = .next (s.closing next)) ∧
      (rest ≠ [] → ¬ denied next → exec .partFrameJoin s = exec .partFrameJoin { s with toBlock := next }) ∧
      (rest = [] → exec .partFrameJoin s = .next (s.closing (reply c.requester 0x0F .ok
        (leBytes 1 (c.placed + 1) ++ leBytes 4 first ++ leBytes 4 r.number) (placed none))))) ∧
    (∀ r : Record,
      let le (xs : List (Nat × Nat)) : List Byte := xs.flatMap fun x => leBytes x.1 x.2
      let stamp (t : Option Stamp) : List Byte := match t with
        | some t => le [(4, t.sec), (2, t.ms)]
        | none => []
      let bit (k : Nat) (x : Bool) : Nat := if x = true then 2 ^ k else 0
      partPayload r =
        le [(1, bit 0 r.openedAt.isSome + bit 1 r.closedAt.isSome + bit 2 r.charge.isSome +
              bit 3 (r.charge.isSome && r.weighedAt.isSome) + bit 4 r.cure.isSome + bit 5 r.demould.isSome),
            (4, r.number), (1, stationNum r.station), (1, r.recipeIndex.val), (1, r.revision),
            (1, match r.verdict with
              | .good => 0
              | .suspect => 1
              | .reject => 2
              | .aborted => 3),
            (2, r.flags.toNat)] ++
          stamp r.openedAt ++ stamp r.closedAt ++
          (match r.charge with
            | some p =>
              le [(1, p.attempts),
                  (1, match p.status with
                    | .pending => 0
                    | .accepted => 1
                    | .rejected => 2
                    | .cancelled => 3)] ++
                leInt 4 (if p.status = .accepted then p.weight else 0) ++ le [(4, p.wait)] ++ stamp r.weighedAt
            | none => []) ++
          (match r.cure with
            | some p =>
              le [(2, p.accrued), (4, p.outOfBand)] ++ leInt 2 p.upperMin ++ leInt 2 p.upperMax ++ leInt 2 p.lowerMin ++
                leInt 2 p.lowerMax ++ le [(2, p.peakTonnage)]
            | none => []) ++
          (match r.demould with
            | some p =>
              le [(1, p.completed), (1, p.skipped), (1, p.retries), (1, p.stalls), (1, p.stuckUnion.toNat),
                  (2, p.peakForce), (4, p.duration)]
            | none => []))

/-- RELEASE (R178, R179, R181): every SENT record numbered at most r is freed and leaves the record order and the selection
of a collection in progress, every other slot is untouched, and the reply carries how many. A collection whose selection is
then empty ends, its COLLECT reply posted before the RELEASE's own. Where any record was freed, HISTORY_FULL ends,
HISTORY_HIGH stands exactly while the CLOSED and SENT records left reach the watermark, and each READY station in production
takes the cycle-open test (R68, `ProduceAndStop`). Nothing else changes. -/
def Obligations.ReleaseRecords : Prop :=
  ∀ (q : Sender) (b0 b1 b2 b3 : Byte) (s : State) (s1 : Block),
    admitted (mgmtRequest q 0x10 [b0, b1, b2, b3]) s.toBlock s1 →
    let n := b0.toNat + 256 * b1.toNat + 65536 * b2.toNat + 16777216 * b3.toNat
    let gone (sl : HistorySlot) : Bool := match sl with
      | .held .sent r => decide (r.number ≤ n)
      | _ => false
    let freed : List (Fin 48) := allSlots.filter fun i => gone (vget s1.hst.slots i)
    let numbers : List Nat := freed.map fun i => slotNumber (vget s1.hst.slots i)
    let left : List (Fin 48) := allSlots.filter fun i =>
      isCollectable (vget s1.hst.slots i) && !gone (vget s1.hst.slots i)
    let kept (c : Collection) : List Nat := c.selection.filter fun k => decide (k ∉ numbers)
    let emptied (collection : Option Collection) : Block := { s1 with hst := { s1.hst with
      slots := Vector.ofFn fun i => if gone (vget s1.hst.slots i) = true then .free else vget s1.hst.slots i
      order := s1.hst.order.filter fun i => !gone (vget s1.hst.slots i)
      collection := collection } }
    let ended : Block := match s1.hst.collection with
      | some c =>
        if kept c = [] then
          reply c.requester 0x0F .ok (leBytes 1 c.placed ++ leBytes 4 c.first ++ leBytes 4 c.last) (emptied none)
        else emptied (some { c with selection := kept c })
      | none => emptied none
    let judged : Block :=
      setLevel .historyHigh (decide (s1.tab.line.watermark ≤ left.length)) (setLevel .historyFull false ended)
    let ends := answered (.release q [b0, b1, b2, b3]) s q 0x10 .ok [BitVec.ofNat 8 freed.length]
    (freed = [] → ends ended) ∧
    (freed ≠ [] → ends (event (fun _ => testStations judged) s1)) ∧
    (freed ≠ [] → (∀ st, (stcOf s1 st).state = .ready → (stcOf s1 st).production = false) →
      ¬ (stateOf s1 .a = .ready ∧ stateOf s1 .b = .ready) → ends judged)

/-- STORE_IMAGE and IMAGE_STORE_END (R190, R191): BUSY while STORING; otherwise the image state is STORING and the store
takes its copy of tables and masks. A completed store leaves that copy in the memory, ends IMAGE_INVALID and reports
IMAGE_STORED; a failed one raises IMAGE_INVALID. Either way the image is READY. The copy of tables that pass their checks is a
valid image of 3314 bytes, whose load gives the mask set and every table it was taken from, the Sample Map with its
configured fields and no reading. That the memory holds no valid image from the acceptance on is the model's choice (log
10), and so is that without a store nothing ends (log 3). Nothing else changes. -/
def Obligations.StoreImage : Prop :=
  ∀ (q : Sender) (s : State) (s1 : Block),
    (admitted (mgmtRequest q 0x11 []) s.toBlock s1 →
      (s1.mga.image = .storing → answered (.storeImage q []) s q 0x11 .busy [] s1) ∧
      (s1.mga.image = .ready → answered (.storeImage q []) s q 0x11 .ok []
        { s1 with mga := { s1.mga with
            image := .storing, storeCopy := imageOf s1.tab s1.cdu.mask, memory := .unsigned } })) ∧
    (s.mga.image = .storing →
      exec (.imageStoreEnd true) s = .next (s.closing
        { s.toBlock with
          mga := { s.mga with image := .ready, memory := .image s.mga.storeCopy }
          cdu := { s.cdu with present := s.cdu.present &&& ~~~(1#23 <<< 21)
                              latched := s.cdu.latched ||| (1#23 <<< 22) } }) ∧
      exec (.imageStoreEnd false) s = .next (s.closing
        (setLevel .imageInvalid true { s.toBlock with mga := { s.mga with image := .ready } }))) ∧
    (∀ done, s.mga.image ≠ .storing → exec (.imageStoreEnd done) s = .next (s.closing s.toBlock)) ∧
    (∀ (t : Tables) (mask : BitVec 23), tablesSound t →
      (imageOf t mask).length = 3314 ∧ imageValid (imageOf t mask) = true ∧ loadMask (imageOf t mask) = mask ∧
      loadTables (imageOf t mask) = { t with map := Vector.ofFn fun i =>
        { config := (vget t.map i).config, freshness := .never, held := 0, quality := 4, age := 0, jumps := 0 } })

/-- POWER_ON (R190): the state is that of reset, but for the content of the configuration memory, which is not the
part's, and for what is the model's own. RESTART and RESTART_FORCE (R8, R187, R192): BUSY while STORING; without FORCE,
NOT_ALLOWED while any record is held. An accepted one brings every block to its values after reset, but keeps the link
states, the counters, the forward queue, the frame on the line, the consecutive-forward count and the own address; its
reply is posted to the empty info queue. -/
def Obligations.ResetCommands : Prop :=
  (∀ s : State, exec .powerOn s =
    .next { State.reset with
            pending := s.pending, choices := s.choices
            mga := { State.reset.mga with memory := s.mga.memory } }) ∧
  (∀ (q : Sender) (force : Bool) (s : State) (s1 : Block),
    let c : Instr := if force then .restartForce q else .restart q
    let held := ∃ i h r, vget s1.hst.slots i = .held h r
    admitted (mgmtRequest q 0x12 [if force then 1 else 0]) s.toBlock s1 →
    (s1.mga.image = .storing → answered c s q 0x12 .busy [] s1) ∧
    (s1.mga.image ≠ .storing → held → force = false → answered c s q 0x12 .notAllowed [] s1) ∧
    (s1.mga.image ≠ .storing → (force = true ∨ ¬ held) → ∃ levels : BitVec 23,
      answered c s q 0x12 .ok []
        { State.reset.toBlock with
          rpu := { s1.rpu with controlQ := [], infoQ := [] }
          mga := { State.reset.mga with memory := s1.mga.memory }
          cdu := { State.reset.cdu with present := levels, latched := levels }
          choices := s1.choices } ∧
      (∀ k, levels.getLsbD k = true ↔ (k = 15 ∧ s1.rpu.inPort.link ≠ .up) ∨ (k = 16 ∧ s1.rpu.outPort.link ≠ .up) ∨
        k = 20)))

/-- IMAGE_LOAD_COMPLETE (R8, R44, R87, R110, R190), in LOADING and without budget pressure: with a valid image in a
memory that answers, tables and masks are the image's and IMAGE_INVALID ends; otherwise tables are the defaults, every
mask bit is set and IMAGE_INVALID is present. Then the image is READY, the own address is that of the settings, every
enabled zone is OFF with its timer started and every other DISABLED with none, the budget timer and both permit refresh
timers start with their settings, and nothing is granted. How the entries of an image are judged, each against those loaded
before it, and that bit 23 of its mask word is dropped, is the model's reading (log 24); that in another image state no
load completes is its choice (log 3). -/
def Obligations.ImageLoad : Prop :=
  ∀ (answers : Bool) (s : State),
    (s.mga.image ≠ .loading → exec (.imageLoadComplete answers) s = .next (s.closing s.toBlock)) ∧
    (s.mga.image = .loading → s.pwa.pressure = false →
      ∃ t, exec (.imageLoadComplete answers) s = .next t ∧ t.pending = s.pending ∧
        (∀ bs, answers = true → s.mga.memory = .image bs → imageValid bs = true →
          t.tab = loadTables bs ∧ t.cdu.mask = loadMask bs ∧ t.cdu.present.getLsbD 21 = false) ∧
        ((answers = false ∨ s.mga.memory = .unsigned ∨ ∃ bs, s.mga.memory = .image bs ∧ imageValid bs = false) →
          t.tab = State.reset.tab ∧ t.cdu.mask = BitVec.allOnes 23 ∧ t.cdu.present.getLsbD 21 = true) ∧
        t.mga = { s.mga with image := .ready } ∧ t.rpu.ownAddress = t.tab.line.own ∧
        (∀ z, let e := vget t.tab.zones z
          (zoneOf t.toBlock z).state = (if e.enabled = true then .off else .disabled) ∧
          (zoneOf t.toBlock z).timer = (if e.enabled = true then
            some { elapsed := 0, length := (e.codeN + 1) * 2 ^ e.codeM * 10 } else none) ∧
          (zoneOf t.toBlock z).r = 0 ∧ (zoneOf t.toBlock z).g = 0 ∧ (zoneOf t.toBlock z).inBand = false ∧
          vget t.pwa.allowance z = 0) ∧
        t.pwa.timer = some { elapsed := 0, length := t.tab.line.period } ∧
        (∀ st, (stcOf t.toBlock st).refresh =
          some { elapsed := 0, length := (t.tab.stations.get st).refresh } ∧
          (stcOf t.toBlock st).state = (stcOf s.toBlock st).state) ∧
        t.hst = s.hst ∧ t.dms = s.dms ∧ t.scu = s.scu)

/-! ### Station timers -/

/-- SETTLE_TIMER_EXPIRY (R67, R84) and PERMIT_REFRESH_EXPIRY (R15, R84): at the end of a running settle timer the
station is heat-ready; from PREHEAT it is READY and, in production, takes the cycle-open test (R68, `ProduceAndStop`); in
PRESS_LOAD CLOSE_OK is set and a changed permit posted. A running refresh timer that ends posts the PERMIT frame, in place of one held, and
starts again with the period in force. A stopped timer does nothing (log 2). Nothing else changes. -/
def Obligations.SettleAndRefreshTimers : Prop :=
  ∀ (st : Station) (s : State),
    let c := stcOf s.toBlock st
    let permit (b : Block) (closeOk : Bool) : List ControlFrame :=
      if b.rpu.outPort.link = .up then
        replaceOrJoin (isPermitOf st) (.permit st (b.tab.stations.get st).pressNode closeOk c.openOk
          (match c.cycle with
           | some cy => cy.record
           | none => 0)) b.rpu.controlQ
      else b.rpu.controlQ
    let fresh : Timer := some { elapsed := 0, length := (s.tab.stations.get st).refresh }
    (c.settle = none → exec (.settleTimerExpiry st) s = .next (s.closing s.toBlock)) ∧
    (c.settle ≠ none → c.state ≠ .preheat → c.state ≠ .pressLoad →
      exec (.settleTimerExpiry st) s = .next (s.closing
        (modStc st (fun c => { c with settle := none, heatReady := true }) s.toBlock))) ∧
    (c.settle ≠ none → c.state = .preheat → exec (.settleTimerExpiry st) s = .next (s.closing (event (fun _ =>
      cycleOpenTest st (modStc st (fun c => { c with settle := none, heatReady := true, state := .ready }) s.toBlock))
      s.toBlock))) ∧
    (c.settle ≠ none → c.state = .preheat → c.production = false → targetsHeld s.toBlock st →
      exec (.settleTimerExpiry st) s = .next (s.closing
        (modStc st (fun c => { c with settle := none, heatReady := true, state := .ready }) s.toBlock))) ∧
    (c.settle ≠ none → c.state = .pressLoad → c.closeOk = false →
      exec (.settleTimerExpiry st) s = .next (s.closing
        { modStc st (fun c => { c with settle := none, heatReady := true, closeOk := true, refresh := fresh })
            s.toBlock with rpu := { s.rpu with controlQ := permit s.toBlock true } })) ∧
    (c.refresh = none → exec (.permitRefreshExpiry st) s = .next (s.closing s.toBlock)) ∧
    (c.refresh ≠ none → exec (.permitRefreshExpiry st) s = .next (s.closing
      { modStc st (fun c => { c with refresh := fresh }) s.toBlock with
        rpu := { s.rpu with controlQ := permit s.toBlock c.closeOk } }))

/-- The cure gate, the ends of CURING and the press edges (R72 to R79, R149). The gate is CLOSED FRESH at 1, TONNAGE FRESH
at no less than the minimum, every enabled zone in band; in CURING each reading or fault of the two judges it: the accrual
runs while it is open, the out-of-band time while CLOSED is shut and a zone out of band, and a time past the allowance, or
any interval with an allowance of 0, flags OUT_OF_BAND (log 27); a TONNAGE reading raises the peak. A rising CLOSED without
CLOSE_OK flags UNPERMITTED_CLOSE and in PRESS_LOAD stops the charge wait, CHARGE_AGED past its maximum. In PRESS_LOAD either
reading with CLOSED and TONNAGE met enters CURING: scale left, the oldest claim granted (R134, R135), wait stopped, accepted
charge none, an empty cure part, empty markers, the gate judged, HEAT_FAULT where a zone is in FAULT. A rising OPENED in OPENING, or in CURING (EARLY_OPEN, the cure
written), starts the chain; in any other state it does nothing. When the accrued time reaches the cure time, or the elapsed
timer its maximum (CURE_INCOMPLETE), the station is in OPENING with OPEN_OK, its PERMIT posted (R84) and the cure written; a
completion that is due and not yet taken is the model's field (log 34). The allowance event brings the count to at least the
allowance plus one (log 27). Both scale timers are stopped where a session ends (log 43). With no count running nothing happens (log 2). Nothing else changes. -/
def Obligations.CureExits : Prop :=
  ∀ (st : Station) (s : State) (cy : Cycle) (i : Fin 48) (r : Record),
    let b := s.toBlock
    let c := stcOf b st
    let signal (g : Signal) : Target := .stationSignal st g
    let bit (k : Nat) (on : Bool) : BitVec 16 := if on = true then 1#16 <<< k else 0
    let broken (k : Cycle) : Bool :=
      decide (k.recipe.allowance * 1000 < k.outOfBand) || (k.outCounting && decide (k.recipe.allowance = 0))
    let stopped (k : Cycle) : Cycle :=
      { k with accruing := false, accrualUp := false, outCounting := false, elapsedRunning := false }
    let cured (k : Cycle) (flags : BitVec 16) : Record := { r with
      flags := flags ||| bit 6 (broken k)
      cure := r.cure.map fun p => { p with accrued := k.accrued / 100, outOfBand := k.outOfBand / 100
                                           peakTonnage := k.peakTonnage } }
    let shut : Bool := isFresh b (signal .closed) && decide (heldOf b (signal .closed) = 1)
    let press : Bool := isFresh b (signal .tonnage) &&
      decide ((cy.recipe.minTonnage : Int) ≤ heldOf b (signal .tonnage))
    let gated (k : Cycle) : Cycle :=
      let gate := shut && press && allInBand b st
      { k with accruing := gate, accrualUp := k.accrualUp && gate, outCounting := shut && !allInBand b st }
    c.cycle = some cy → openIn b i cy.record r →
    (c.state = .curing → targetsHeld b st →
      let opens (cmd : Instr) (k : Cycle) (flags : BitVec 16) : Prop :=
        let y := writes i (cured k flags) (modStc st (fun c => { c with
          state := .opening, openOk := true, cycle := some (stopped k) }) b)
        exec cmd s = .next (s.closing (if c.openOk = true then y else postPermit st y))
      (cy.accruing = true →
        opens (.cureAccrualComplete st) { cy with accrued := cy.recipe.cure * 100 } r.flags) ∧
      (cy.accruing = false → exec (.cureAccrualComplete st) s = .next (s.closing b)) ∧
      (cy.elapsedRunning = true →
        opens (.maximumCureTimeExpiry st) { cy with elapsed := cy.recipe.maxCure * 100 } (r.flags ||| bit 2 true)) ∧
      (cy.elapsedRunning = false → exec (.maximumCureTimeExpiry st) s = .next (s.closing b)) ∧
      (cy.outCounting = true → exec (.outOfBandAllowanceExceeded st) s = .next (s.closing
        (writes i { r with flags := r.flags ||| bit 6 true } (modStc st (fun c =>
          { c with cycle := some { cy with outOfBand := max cy.outOfBand (cy.recipe.allowance * 1000 + 1) } }) b)))) ∧
      (cy.outCounting = false → exec (.outOfBandAllowanceExceeded st) s = .next (s.closing b))) ∧
    (c.state = .curing →
      let judged (k : Cycle) (flags : BitVec 16) : Block :=
        writes i { r with flags := flags ||| bit 6 (broken (gated k)) }
          (modStc st (fun c => { c with cycle := some (gated k) }) b)
      deliverFault (signal .closed) b = judged cy r.flags ∧ deliverFault (signal .tonnage) b = judged cy r.flags ∧
      ∀ (v : Int) (edge : Edge),
        deliverReading (signal .tonnage) v edge b =
          judged { cy with peakTonnage := max cy.peakTonnage v.toNat } r.flags ∧
        deliverReading (signal .closed) v edge b =
          judged cy (r.flags ||| bit 4 (decide (edge = .rising) && !c.closeOk))) ∧
    (c.state = .pressLoad → ∀ (v : Int) (edge : Edge),
      let aged (ends : Bool) : Bool := ends && decide (cy.recipe.maxWait * 1000 < cy.chargeWait)
      let waited (ends : Bool) (flags : BitVec 16) : Record := { r with
        flags := flags ||| bit 7 (aged ends)
        charge := if ends = true then r.charge.map fun p => { p with wait := cy.chargeWait } else r.charge }
      let seen (ends : Bool) (x : Block) : Block := { x with cdu := { x.cdu with
        latched := if aged ends = true then x.cdu.latched ||| (1#23 <<< (5 * stationNum st + 4))
          else x.cdu.latched } }
      let flags := r.flags ||| bit 4 (decide (edge = .rising) && !c.closeOk)
      ((shut && press) = false →
        let ends := decide (edge = .rising) && cy.waitRunning
        deliverReading (signal .tonnage) v edge b = b ∧
        deliverReading (signal .closed) v edge b = seen ends (writes i (waited ends flags)
          (modStc st (fun c => { c with cycle := some { cy with waitRunning := cy.waitRunning && !ends } }) b))) ∧
      ((shut && press) = true →
        let ends := cy.waitRunning
        let k := gated { cy with waitRunning := false, elapsedRunning := true, elapsed := 0
                                 peakTonnage := (heldOf b (signal .tonnage)).toNat }
        let entered (flags : BitVec 16) (from_ : Block) : Block :=
          let w := waited ends flags
          let x := seen ends (writes i
            { w with
              flags := w.flags ||| bit 6 (broken k) ||| bit 1 (anyFault b st)
              cure := some { accrued := 0, outOfBand := 0, upperMin := 0, upperMax := 0, lowerMin := 0, lowerMax := 0
                             peakTonnage := 0 } }
            (modStc st (fun c => { c with state := .curing, closeOk := false, cycle := some k }) from_))
          { x with
            scu := { from_.scu with accepted := b.scu.accepted.set st none }
            zrg := { b.zrg with markers := b.zrg.markers.set st { upper := false, lower := false } } }
        let enters (from_ : Block) : Prop :=
          deliverReading (signal .tonnage) v edge b = entered r.flags from_ ∧
          deliverReading (signal .closed) v edge b = entered flags from_
        ((∀ u, b.scu.session = some u → u.owner ≠ st) →
          enters { b with scu := unclaimed st b.scu }) ∧
        (∀ u, b.scu.session = some u → u.owner = st → u.state = .accepted →
          (b.scu.claims = [] → enters { b with scu := sessionless b.scu }) ∧
          (∀ o rest cy' j w, b.scu.claims = o :: rest → (stcOf b o).cycle = some cy' → openIn b j cy'.record w →
            cy'.record ≠ cy.record → enters (granted o cy' j w { b with scu := sessionless b.scu }))))) ∧
    (c.state ≠ .curing → c.state ≠ .pressLoad → ∀ (v : Int) (edge : Edge),
      deliverReading (signal .tonnage) v edge b = b ∧
      deliverReading (signal .closed) v edge b =
        (if isCycleState c.state = true ∧ edge = .rising ∧ c.closeOk = false then
          writes i { r with flags := r.flags ||| bit 4 true } b else b)) ∧
    (∀ (v : Int) (edge : Edge),
      ((edge ≠ .rising ∨ (c.state ≠ .opening ∧ c.state ≠ .curing)) → deliverReading (signal .opened) v edge b = b) ∧
      (∀ p, cy.steps.head? = some p →
        let started (d : Dms) : Dms :=
          { d with
            clock := some 0, abortPending := false, stuck := 0, probeStuck := 0, cause := .none, scanFollows := false
            retractPos := none, stepPos := 1, mask := p.mask, retries := 0, resume := .none, probeGroup := none
            probePhase := .none, order := none }
        let begun (w : Record) (x : Block) : Block :=
          let zero : DemouldPart :=
            { completed := 0, skipped := 0, retries := 0, stalls := 0, stuckUnion := 0, peakForce := 0, duration := 0 }
          let y := writes i { w with demould := some zero } x
          issued st p p.mask (modDms st started y)
        (c.state = .opening → deliverReading (signal .opened) v .rising b =
          begun r (modStc st (fun c => { c with state := .demoulding, openOk := false }) b)) ∧
        (c.state = .curing → deliverReading (signal .opened) v .rising b =
          begun (cured cy (r.flags ||| bit 3 true))
            (modStc st (fun c => { c with state := .demoulding, cycle := some (stopped cy) }) b))))

/-! ### Zones and budget -/

/-- REGULATION_EVENT (R88, R91 to R97, R99, R100, R102, R105 to R107). The timer restarts, then the sensor is selected: the
window advances; a selected slot not FRESH gives way to a FRESH other one; at the window's end the other slot, FRESH, is
taken when its faults and the margin are fewer than the selected one's; a switch, or a window's end, starts a new window,
and a switch flags SENSOR_SWITCHED in CURING. REGULATING with PV usable and within the limit: WSP steps toward T, integral,
duty and grant are computed and posted, the band judged. PV not usable: BLIND, hold timer started, the duty the former one
within blind cap and ceiling; BLIND stays so, or regulates again once PV is usable. PV above the limit: FAULT with cause
OVERTEMP. OFF and FAULT: duties 0. BLIND, FAULT and OFF leave the zone out of band. A report of a zone in or out of band
changes the station's record: in band it starts a stopped settle timer once all are; out of band it stops it, clears
heat-ready and CLOSE_OK, and takes READY to PREHEAT; in CURING it judges the gate as a fault of CLOSED does. Last, in CURING
a usable PV enters its platen's summary. That OFF, FAULT and an entry into FAULT keep the last judged target is the model's
choice (log 37). A stopped timer does nothing (log 2). -/
def Obligations.RegulationEvent : Prop :=
  ∀ (z : Fin 32) (s : State),
    let b0 := s.toBlock
    let c := zoneOf b0 z
    let e := entryOf b0 z
    let restarted : Block := modZone z (fun c =>
      { c with timer := some { elapsed := 0, length := (e.codeN + 1) * 2 ^ e.codeM * 10 } }) b0
    (c.timer = none → exec (.regulationEvent z) s = .next (s.closing b0)) ∧
    (c.timer ≠ none → exec (.regulationEvent z) s = .next (s.closing
      (event (fun _ => summarise z (regulateByState z (selectSensor z restarted))) b0))) ∧
    (∀ b : Block,
      let c := zoneOf b z
      let e := entryOf b z
      let st := e.station
      let T := zoneTarget b z
      let pv := slotHeld b z c.slot
      let usable := slotFresh b z c.slot
      let allow := vget b.pwa.allowance z
      let ramp : Int := if c.wsp < T then min T (c.wsp + e.rampStep) else max T (c.wsp - e.rampStep)
      let put (k : Zone) : Block := modZone z (fun _ => k) b
      let posted (k : Zone) : Block := postDuty z (put k)
      let faults : Slot → Nat
        | .zero => c.faults0
        | .one => c.faults1
      let other := otherSlot c.slot
      let anew (sl : Slot) : Zone := { c with slot := sl, windowPos := 0, faults0 := 0, faults1 := 0
                                              windowLen := e.scanWindow, windowMargin := e.switchMargin }
      let lost := usable = false ∧ slotFresh b z other = true
      let ended := c.windowLen ≤ c.windowPos + 1
      let better := faults other + c.windowMargin < faults c.slot ∧ slotFresh b z other = true
      let switched : Block :=
        if stateOf b st = .curing then setFlag st .sensorSwitched (put (anew other)) else put (anew other)
      let reported (k : Zone) (band : Bool) (x : Block) : Block :=
        if k.inBand = band then x else zoneReport st z band (modZone z (fun c => { c with inBand := band }) x)
      let ends (k : Zone) (band : Bool) : Prop := regulateByState z b = reported k band (posted k)
      let fault : Zone := { c with state := .fault, cause := .overtemp, r := 0, g := 0, iq := 0, blindHold := none }
      let faulted (k : Zone) : Prop := regulateByState z b =
        (let x := reported k false (postDuty z (dropAllowance z (put k)))
         let y := setLevel (.heatFault st) (anyFault x st) x
         if stateOf x st = .curing then setFlag st .heatFault y else y)
      let err : Int := max (-2000) (min 2000 (ramp - pv))
      let cand : Int := c.iq + e.ki * err
      let v : Int := (e.kp * err + cand + 128) / 256 + e.ff
      let iq : Int := if (e.dutyCeiling < v ∧ 0 < err) ∨ (v < 0 ∧ err < 0) then c.iq else max 0 (min 256000 cand)
      let u : Int := max 0 (min (e.dutyCeiling : Int) ((e.kp * err + iq + 128) / 256 + e.ff))
      let r : Nat := (max ((c.r : Int) - e.slew) (min u ((c.r : Int) + e.slew))).toNat
      let judged : Bool := decide (ramp = T ∧ (T - pv).natAbs ≤ bandWidth b z ∧ stateOf b st ≠ .off ∧
        stateOf b st ≠ .standby)
      let computed : Zone := { c with wsp := ramp, iq := iq, r := r, g := min r allow, lastTarget := T }
      let blind (base : Nat) : Zone :=
        let r := min base (min e.blindCap e.dutyCeiling)
        { c with state := .blind, blindBase := base, r := r, g := min r allow, wsp := ramp, lastTarget := T }
      (lost → selectSensor z b = switched) ∧
      (¬ lost → ¬ ended → selectSensor z b = put { c with windowPos := c.windowPos + 1 }) ∧
      (¬ lost → ended → better → selectSensor z b = switched) ∧
      (¬ lost → ended → ¬ better → selectSensor z b = put (anew c.slot)) ∧
      (c.state = .disabled → regulateByState z b = b) ∧
      ((c.state = .off ∨ c.state = .fault) → ends { c with r := 0, g := 0 } false) ∧
      (c.state = .regulating → usable = true → pv ≤ e.overtempLimit → ends computed judged) ∧
      (c.state = .regulating → usable = true → (e.overtempLimit : Int) < pv → faulted fault) ∧
      (c.state = .regulating → usable = false →
        ends { blind c.r with blindHold := some { elapsed := 0, length := e.blindHold * 1000 } } false) ∧
      (c.state = .blind → usable = false → ends (blind c.blindBase) false) ∧
      (c.state = .blind → usable = true → pv ≤ e.overtempLimit →
        ends { computed with state := .regulating, blindHold := none } judged) ∧
      (c.state = .blind → usable = true → (e.overtempLimit : Int) < pv → faulted fault) ∧
      (∀ (band : Bool) (rc : Recipe), recipeFor b st = some rc →
        let marked : Block := modStc st (fun c => { c with inBand := vset c.inBand z band }) b
        let begins (c : Stc) : Prop := c.settle = none ∧ c.state ≠ .off ∧ c.state ≠ .standby ∧ allInBand marked st = true
        let run : Timer := some { elapsed := 0, length := rc.settle * 1000 }
        let x : Block := modStc st (fun c =>
          if band = true then { c with settle := if begins c then run else c.settle }
          else { c with settle := none, heatReady := false, closeOk := false }) marked
        (stateOf b st = .curing → zoneReport st z band b = deliverFault (.stationSignal st .closed) x) ∧
        (stateOf b st ≠ .curing → (band = true ∨ stateOf b st ≠ .ready) → zoneReport st z band b = x) ∧
        (stateOf b st = .ready → band = false → zoneReport st z band b =
          setLevel (.noCycle st) false (modStc st (fun c => { c with state := .preheat, noCycle := .none }) x))) ∧
      ((stateOf b st ≠ .curing ∨ e.enabled = false ∨ usable = false) → summarise z b = b) ∧
      (∀ cy i w p, stateOf b st = .curing → e.enabled = true → usable = true → (stcOf b st).cycle = some cy →
        openIn b i cy.record w → w.cure = some p →
        let m := b.zrg.markers.get st
        let low (on : Bool) (old : Int) : Int := if on = true then min old pv else pv
        let high (on : Bool) (old : Int) : Int := if on = true then max old pv else pv
        summarise z b = (match e.platen with
          | .upper => { writes i { w with cure := some { p with
              upperMin := low m.upper p.upperMin, upperMax := high m.upper p.upperMax } } b with
              zrg := { b.zrg with markers := b.zrg.markers.set st { m with upper := true } } }
          | .lower => { writes i { w with cure := some { p with
              lowerMin := low m.lower p.lowerMin, lowerMax := high m.lower p.lowerMax } } b with
              zrg := { b.zrg with markers := b.zrg.markers.set st { m with lower := true } } })))

/-- BLIND_HOLD_EXPIRY (R101 to R103, R115, R77): a BLIND zone whose hold timer ends is in FAULT with cause SENSOR_LOST,
its duties and integral 0, its allowance 0, its duty of 0 posted, HEAT_FAULT present; while its station is CURING the
record is flagged HEAT_FAULT as well. A zone that is not BLIND, or whose hold timer is stopped, is left as it is (log 2,
log 3). -/
def Obligations.BlindHoldExpires : Prop :=
  ∀ (z : Fin 32) (s : State),
    let b0 := s.toBlock
    let c := zoneOf b0 z
    let e := entryOf b0 z
    let faulted : Block := setLevel (.heatFault e.station) true
      (postDuty z (dropAllowance z (modZone z (fun c =>
        { c with state := .fault, cause := .sensorLost, r := 0, g := 0, iq := 0, blindHold := none }) b0)))
    ((c.blindHold = none ∨ c.state ≠ .blind) → exec (.blindHoldExpiry z) s = .next (s.closing b0)) ∧
    (c.blindHold ≠ none → c.state = .blind → c.inBand = false → e.enabled = true →
      (stateOf b0 e.station ≠ .curing → exec (.blindHoldExpiry z) s = .next (s.closing faulted)) ∧
      (stateOf b0 e.station = .curing → ∀ cy i r, (stcOf b0 e.station).cycle = some cy → openIn b0 i cy.record r →
        exec (.blindHoldExpiry z) s = .next (s.closing
          { faulted with hst := { s.hst with
              slots := vset s.hst.slots i (.held .opened { r with flags := r.flags ||| (1#16 <<< 1) }) } })))

/-- BUDGET_PERIOD_EXPIRY (R63, R110 to R114, R116 to R118): the timer restarts with the period; each class is served out of
what the class before it leaves of C = 1000 × power cap: its factor is 1024 when its load fits, else the floor of remaining ×
1024 / load with nothing left; each zone's allowance is the floor of demand × factor / 1024, and the allowances never add up
to more than C. Every grant above its allowance is clipped to it and posted, in ascending zone order. BUDGET_PRESSURE,
absent, becomes present exactly when the loads add up to more than C; present, it stays exactly while they are above the
restore fraction of the cap. Where it clears, each station with a deferred wake drops it and, still in OFF or STANDBY with a
bound recipe and an enabled zone, is in PREHEAT as by WAKE, from OFF with its zones leaving OFF; a zone of it in band that
was judged at another target is out of band (R106). Setpoints, requested duties and zone states change in no other way. That a class of load 0 has factor 1024 with
no capacity left is the model's reading (log 38), and so is that the zones of a station that leaves STANDBY keep the allowances
and grants of this event (log 41). A stopped timer does nothing (log 2). -/
def Obligations.BudgetPeriod : Prop :=
  ∀ s : State,
    let b := s.toBlock
    let C := s.tab.line.cap * 1000
    let load (k : BudgetClass) : Nat :=
      ((allZones.filter fun z => decide (zoneClass b z = some k)).map fun z =>
        demandOf b z * (entryOf b z).ratedPower).sum
    let left (l remaining : Nat) : Nat := if l ≤ remaining then remaining - l else 0
    let factor (l remaining : Nat) : Nat := if l ≤ remaining then 1024 else remaining * 1024 / l
    let r1 := left (load .curing) C
    let F (k : BudgetClass) : Nat := match k with
      | .curing => factor (load .curing) C
      | .heating => factor (load .heating) r1
      | .standby => factor (load .standby) (left (load .heating) r1)
    let sum := load .curing + load .heating + load .standby
    (s.pwa.timer = none → exec .budgetPeriodExpiry s = .next (s.closing b)) ∧
    (s.pwa.timer ≠ none → exec .budgetPeriodExpiry s = .next (s.closing (event (fun _ => budgetEvent
      { b with pwa := { s.pwa with timer := some { elapsed := 0, length := s.tab.line.period } } }) b))) ∧
    (s.pwa.timer ≠ none → (∀ st, (stcOf b st).deferredWake = true →
        (noBand b st ∨ (stcOf b st).closeOk = false) ∧ (stcOf b st).cycle = none) →
      ∃ t, exec .budgetPeriodExpiry s = .next (s.closing t) ∧
        t.pwa.timer = some { elapsed := 0, length := s.tab.line.period } ∧ t.pwa.capacity = C ∧
        t.pwa.load = { c0 := load .curing, c1 := load .heating, c2 := load .standby } ∧
        t.pwa.factor = { c0 := F .curing, c1 := F .heating, c2 := F .standby } ∧
        (∀ z k, zoneClass b z = some k → vget t.pwa.allowance z = demandOf b z * F k / 1024) ∧
        (∀ z, zoneClass b z = none → vget t.pwa.allowance z = 0) ∧
        t.pwa.allowanceLoad = (allZones.map fun z => vget t.pwa.allowance z * (entryOf b z).ratedPower).sum ∧
        t.pwa.allowanceLoad ≤ C ∧
        t.pwa.pressure = (if s.pwa.pressure = true then decide (s.tab.line.cap * 10 * s.tab.line.restore < sum)
          else decide (C < sum)) ∧
        (let wakes (st : Station) : Prop := s.pwa.pressure = true ∧ t.pwa.pressure = false ∧
            (stcOf b st).deferredWake = true
          let heats (st : Station) : Prop := wakes st ∧ ((stcOf b st).state = .off ∨ (stcOf b st).state = .standby) ∧
            (stcOf b st).bound ≠ none ∧ zonesOf b st ≠ []
          let clipped (z : Fin 32) : Bool := decide (vget t.pwa.allowance z < (zoneOf b z).g)
          let T (i : Fin 16) (z : Fin 32) : Int := max 0 (min ((match (entryOf b z).platen with
              | .upper => ((vget b.tab.recipes i).upper : Int)
              | .lower => ((vget b.tab.recipes i).lower : Int)) + (entryOf b z).offset) 4000)
          let moved (st : Station) (i : Fin 16) (z : Fin 32) : Bool :=
            decide (z ∈ zonesOf b st) && (zoneOf b z).inBand && decide (T i z ≠ (zoneOf b z).lastTarget)
          (∀ st, (¬ wakes st → stcOf t st = stcOf b st) ∧
            (wakes st → ¬ heats st → stcOf t st = { stcOf b st with deferredWake := false }) ∧
            (∀ i, heats st → (stcOf b st).bound = some i → stcOf t st = { stcOf b st with
              deferredWake := false, state := .preheat, heatReady := false, inBand := (stcOf t st).inBand
              settle := if allInBand b st = true ∧ (List.finRange 32).any (moved st i) = false then
                  some { elapsed := 0, length := (vget s.tab.recipes i).settle * 1000 }
                else none }) ∧
            (∀ i z, heats st → (stcOf b st).bound = some i →
              vget (stcOf t st).inBand z = (if moved st i z = true then false else vget (stcOf b st).inBand z))) ∧
          (∀ z,
            let c := zoneOf b z
            let st := (entryOf b z).station
            let out := heats st ∧ (stcOf b st).state = .off ∧ (entryOf b z).enabled = true ∧ c.state = .off
            let g := min c.g (vget t.pwa.allowance z)
            let inBand : Bool := match (stcOf b st).bound with
              | some i => if heats st ∧ moved st i z = true then false else c.inBand
              | none => c.inBand
            (¬ out → zoneOf t z = { c with g := g, inBand := inBand }) ∧
            (out → zoneOf t z = { c with
              g := g, inBand := inBand, state := .regulating, iq := 0, r := 0, blindHold := none
              wsp := if slotFresh b z c.slot = true then slotHeld b z c.slot
                else if slotFresh b z (otherSlot c.slot) = true then slotHeld b z (otherSlot c.slot)
                else 0 })) ∧
          t = { b with
                stc := t.stc, zrg := { s.zrg with zones := t.zrg.zones }, pwa := t.pwa
                cdu := (setLevel .budgetPressure t.pwa.pressure b).cdu
                rpu := { s.rpu with
                  controlQ := if s.rpu.outPort.link = .up then
                      (allZones.filter clipped).foldl (fun q z =>
                        putDrive (enabledNodes b) (entryOf b z).driveNode (entryOf b z).driveChannel
                          (vget t.pwa.allowance z) q) s.rpu.controlQ
                    else s.rpu.controlQ } }))

/-! ### Scale timers -/

/-- The weighing (R71, R125 to R129, R136 to R143). A SCALE_RAW reading sets the latest gross, judges overload, joins the
window, and judges the stable flag by the band in force; then the session is evaluated: CLEARING enters LOADING on an empty
scale, else asks once for it to be cleared; LOADING posts NEAR_TARGET at its threshold and runs the stable dwell while the
scale is stable, loaded and not overloaded; SETTLING captures a stable one; ACCEPTED on an empty scale ends, and the oldest
claim is granted; REJECTED on an empty one begins its next attempt. A SCALE_DONE edge takes LOADING to SETTLING. A cleared
window holds nothing and is not stable. STABLE_DWELL_EXPIRY captures: within the tolerances, bounds inclusive, an ACCEPT:
notice, charge part, weighed-at time, session ACCEPTED, the station in PRESS_LOAD with its charge wait running and CLOSE_OK
when heat-ready, and the test of R72 taken as at a TONNAGE reading. Outside them, or at LOADING_TIMER_EXPIRY, a reject: the
notice carries cause and weight, the charge part is REJECTED with weight 0, CHARGE_REJECTED latched; with attempts left the
session is REJECTED, else it ends, the oldest claim is granted (`ProduceAndStop`), and the cycle closes as ABORTED, as
`AbortCycle` states the close, the cycle-open test in the same event. Both timers stop. The model's choices: a stopped timer
does nothing (log 2); neither does a capture or a loading timeout without a session, which cannot occur (log 32); the
end of a session leaves neither timer running (log 43). -/
def Obligations.ScaleTimers : Prop :=
  ∀ s : State,
    let b := s.toBlock
    let cleared : Block := { b with scu := { b.scu with window := [], stable := false, dwell := none } }
    (s.scu.dwell = none → exec .stableDwellExpiry s = .next (s.closing b)) ∧
    (s.scu.loading = none → exec .loadingTimerExpiry s = .next (s.closing b)) ∧
    (s.scu.dwell ≠ none → exec .stableDwellExpiry s = .next (s.closing (event (fun _ => capture b) b))) ∧
    (s.scu.loading ≠ none → exec .loadingTimerExpiry s = .next (s.closing (event (fun _ => loadingTimeout b) b))) ∧
    (s.scu.session = none → capture b = b ∧ loadingTimeout b = b) ∧
    (∀ (v : Int) (edge : Edge),
      let l := b.tab.line
      let gross : Int := ((v - l.zero) * l.span + 32768) / 65536
      let excess := decide ((l.capacity : Int) < gross)
      let n := 2 ^ l.windowCode
      let held := (if n ≤ b.scu.window.length then b.scu.window.tail else b.scu.window) ++
        [{ raw := v, net := gross - b.scu.tare }]
      let nets := held.map (·.net)
      let band : Nat := if b.scu.stable = true then l.leaveBand else l.stableBand
      let stable := decide (n ≤ held.length ∧ ∀ x ∈ nets, ∀ y ∈ nets, x - y ≤ (band : Int))
      let t : Block := { setLevel .scaleOverload excess b with
        scu := { b.scu with latestGross := some gross, overload := excess, window := held, stable := stable } }
      let net : Int := if n ≤ held.length then (nets.sum + (n / 2 : Nat)) / (n : Int) else gross - b.scu.tare
      let empty := stable && decide (net ≤ (l.emptyLimit : Int))
      let reads (x : Block) : Prop := deliverReading .scaleRaw v edge b = x
      filteredNet t = net ∧
      (b.scu.session = none → reads t ∧ deliverReading .scaleDone v edge b = b) ∧
      (∀ u, b.scu.session = some u →
        let settled : Block := { b with scu := { b.scu with dwell := none, session := some { u with state := .settling } } }
        ((edge ≠ .rising ∨ u.state ≠ .loading) → deliverReading .scaleDone v edge b = b) ∧
        (u.state = .loading → deliverReading .scaleDone v .rising b =
          (if b.scu.stable = true ∧ b.scu.overload = false then capture settled else settled)) ∧
        (u.state = .clearing → empty = false → reads (if stable = true ∧ u.clearSent = false then
          { postWeigh { station := u.owner, notice := .clearScale, attempt := 0, cause := .none, weight := net } t with
            scu := { t.scu with session := some { u with clearSent := true } } } else t)) ∧
        (u.state = .loading → reads (evaluated u t)) ∧
        (u.state = .settling → reads (if stable = true ∧ excess = false then capture t else t)) ∧
        ((u.state = .accepted ∨ u.state = .rejected) → empty = false → reads t) ∧
        (∀ cy i w, (stcOf b u.owner).cycle = some cy → openIn b i cy.record w →
          (u.state = .clearing ∨ u.state = .rejected) → empty = true → reads (attemptBegun u i w t)) ∧
        (u.state = .accepted → empty = true →
          (b.scu.claims = [] → reads { t with scu := sessionless t.scu }) ∧
          (∀ st rest cy i w, b.scu.claims = st :: rest → (stcOf b st).cycle = some cy → openIn b i cy.record w →
            reads (granted st cy i w { t with scu := sessionless t.scu }))))) ∧
    filteredNet cleared = 0 ∧
    ((∀ u, b.scu.session = some u → u.state ≠ .loading) → deliverStale .scaleRaw b = cleared) ∧
    (∀ u, b.scu.session = some u → u.state = .loading → deliverStale .scaleRaw b = evaluated u cleared) ∧
    (∀ u cy i r, b.scu.session = some u → (stcOf b u.owner).cycle = some cy → openIn b i cy.record r →
      let st := u.owner
      let c := stcOf b st
      let w := filteredNet b
      let told (n : Notice) (cause : WeighCause) : Block :=
        postWeigh { station := st, notice := n, attempt := u.attempts, cause := cause, weight := w } b
      let refused : Record := { r with charge := r.charge.map fun p => { p with status := .rejected, weight := 0 } }
      let again (cause : WeighCause) : Block := { writes i refused (told .rejected cause) with
        scu := { b.scu with session := some { u with state := .rejected }, dwell := none, loading := none }
        cdu := { b.cdu with latched := b.cdu.latched ||| (1#23 <<< 12) } }
      let final (cause : WeighCause) : Block :=
        cycleOpenTest st (cycleClosed st cy i (refused.aborted false)
          (grantOldest { again cause with scu := sessionless b.scu }))
      let ends (x : Block) (cause : WeighCause) : Prop :=
        (u.attempts < u.maxAttempts → x = again cause) ∧
        (u.maxAttempts ≤ u.attempts → c.state = .charging → st ∉ b.scu.claims →
          (∀ o k, o ∈ b.scu.claims → (stcOf b o).cycle = some k → k.record ≠ cy.record) → x = final cause)
      ends (loadingTimeout b) .timeout ∧
      (w < (u.target : Int) - u.tolLow → ends (capture b) .under) ∧
      ((u.target : Int) - u.tolLow ≤ w → (u.target : Int) + u.tolHigh < w → ends (capture b) .over) ∧
      ((u.target : Int) - u.tolLow ≤ w → w ≤ (u.target : Int) + u.tolHigh → c.state = .charging → ∀ v edge,
        let weighed : Record := { r with
          charge := r.charge.map fun p => { p with status := .accepted, weight := w }
          weighedAt := match b.hst.lineTime with
            | some x => some x
            | none => r.weighedAt }
        capture b = deliverReading (.stationSignal st .tonnage) v edge
          { modStc st (fun c => { c with
              state := .pressLoad, closeOk := c.heatReady
              cycle := some { cy with waitRunning := true, chargeWait := 0 } })
              (writes i weighed (told .accepted .none)) with
            scu := { b.scu with
              session := some { u with state := .accepted }, dwell := none, loading := none
              accepted := b.scu.accepted.set st (some { weight := w, attempts := u.attempts }) } }))

/-! ### Sequencer timers -/

/-- The sequencer's events (R148 to R166). An arrival of the order in force, an EJECT_POS reading within the tolerance, stops
the step timer: STROKING dwells, RETRACTING counts a retry and issues the step again or begins the scan, a probe returns or
rests, HOMING completes: DONE, the duration written, the cycle closed and the cycle-open test taken (`ProduceAndStop`). An EJECT_FORCE reading raises the peak; above the
limit of the state it is a stall: counted and DEMOULD_RETRIED flagged, with retries left a retract, else with scan enabled a
retract that the scan follows, else a halt with the mask; in RETRACTING and HOMING a halt, in an outward probe the group
found stuck and its return. A dwell that ends completes the step and passes the boundary; a rest probes the next group of
the mask, held back by HOLD, or ends the scan: STALL with the groups found, or STALL_UNLOCATED with the mask. An expired step
timer halts with TIMEOUT, but an outward probe takes it as stuck. A stale ejector signal halts a moving sequencer with
SENSOR. HOLD released resumes a PAUSED one. Each order posted needs both ejector signals FRESH, else SENSOR. The model's
choices: a stopped timer does nothing (log 2); the probe phase stays REST while a probe is PAUSED before its next group, and
a resume action taken is none (log 21); the order that arrived stays the order in force in DWELL and REST (log 23). Other records, the other station and sequencer, tables and zones are untouched. -/
def Obligations.SequencerTimers : Prop :=
  ∀ (st : Station) (s : State),
    let b := s.toBlock
    let c := stcOf b st
    let d := dmsOf b st
    let signal (g : Signal) : Target := .stationSignal st g
    let stepFires (x : Block) : Prop := exec (.stepTimerExpiry st) s = .next (s.closing (event (fun _ => x) b))
    let dwellFires (x : Block) : Prop := exec (.dwellTimerExpiry st) s = .next (s.closing (event (fun _ => x) b))
    let moving := d.state = .stroking ∨ d.state = .retracting ∨ d.state = .homing ∨
      (d.state = .probing ∧ (d.probePhase = .out ∨ d.probePhase = .back))
    let resume : Resume := if d.state = .probing then .probe else if d.state = .homing then .homing else .step
    (d.stepTimer = none → exec (.stepTimerExpiry st) s = .next (s.closing b)) ∧
    (d.dwellTimer = none → exec (.dwellTimerExpiry st) s = .next (s.closing b)) ∧
    (d.stepTimer ≠ none →
      (moving → ¬ (d.state = .probing ∧ d.probePhase = .out) → stepFires (haltedAt st .timeout 0 resume b)) ∧
      (¬ moving → stepFires b)) ∧
    (d.dwellTimer ≠ none → d.state ≠ .dwell → ¬ (d.state = .probing ∧ d.probePhase = .rest) → dwellFires b) ∧
    (∀ g, (g = .ejectPos ∨ g = .ejectForce) →
      (moving → deliverStale (signal g) b = haltedAt st .sensor 0 resume b) ∧
      (¬ moving → deliverStale (signal g) b = b)) ∧
    (∀ cy i r last, c.cycle = some cy → openIn b i cy.record r → cy.steps.getLast? = some last →
      let done (w : Record) : Record := w.demoulded fun p => { p with completed := min (p.completed + 1) 255 }
      let retract : Nat := d.retractPos.getD 0
      let near (v : Int) : Prop := ∃ o, d.order = some o ∧
        (v - (o.target : Int)).natAbs ≤ (b.tab.stations.get st).tolerance
      let freed (x : Block) : Block := modDms st (fun d => { d with stepTimer := none }) x
      let outward (p : StepCopy) (g : Nat) (x : Block) : Block :=
        probed st p g .out (min 30000 (retract + cy.recipe.scanTravel)) (max 1 (p.ceiling * cy.recipe.scanForce / 100)) x
      let back (p : StepCopy) (g : Nat) (x : Block) : Block := probed st p g .back retract p.ceiling x
      let stuckBack (p : StepCopy) (g : Nat) (x : Block) : Block :=
        back p g (modDms st (fun d => { d with probeStuck := d.probeStuck ||| (1#8 <<< g) }) x)
      let first (g : Nat) (k : Nat) : Prop := g ≤ k ∧ k < 8 ∧ d.mask.getLsbD k = true ∧
        ∀ j, g ≤ j → j < k → d.mask.getLsbD j = false
      let united (w : Record) (m : BitVec 8) : Record := w.demoulded fun p => { p with stuckUnion := p.stuckUnion ||| m }
      let rested (g : Nat) (y x : Block) : Prop :=
        (∀ k p, first (g + 1) k → cy.steps[d.stepPos - 1]? = some p →
          (heldOf b (signal .hold) = 1 →
            x = pausedAt st .probe (modDms st (fun d => { d with probeGroup := some k }) y)) ∧
          (heldOf b (signal .hold) ≠ 1 → x = outward p k y)) ∧
        ((∀ k, g < k → k < 8 → d.mask.getLsbD k = false) →
          (d.probeStuck = 0 → x = haltedAt st .stallUnlocated d.mask .step (writes i (united r d.mask) y)) ∧
          (d.probeStuck ≠ 0 → x = haltedAt st .stall d.probeStuck .step (writes i (united r d.probeStuck) y)))
      let idle (x : Block) : Block := modDms st (fun d => { d with dwellTimer := none }) x
      (d.dwellTimer ≠ none →
        (d.state = .dwell → 1 ≤ d.stepPos →
          dwellFires (passed st cy.steps last d.stepPos (writes i (done r) (idle b)))) ∧
        (∀ g, d.state = .probing → d.probePhase = .rest → d.probeGroup = some g → 1 ≤ d.stepPos →
          ∃ x, dwellFires x ∧ rested g (idle b) x)) ∧
      (∀ (v : Int) (edge : Edge),
        let pos (x : Block) : Prop := deliverReading (signal .ejectPos) v edge b = x
        ((¬ moving ∨ ¬ near v) → pos b) ∧
        (near v → d.state = .homing → pos (cycleOpenTest st (cycleClosed st cy i
          (r.demoulded fun p => { p with duration := d.clock.getD 0 })
          (modDms st (fun d => { d with state := .done, clock := none, abortPending := false }) (stopped st b)))))) ∧
      (∀ (n : Nat) p, d.stepPos = n + 1 → cy.steps[n]? = some p → ∀ (v : Int) (edge : Edge),
        let pos (x : Block) : Prop := deliverReading (signal .ejectPos) v edge b = x
        let retried : Record := r.demoulded fun q => { q with retries := min (q.retries + 1) 255 }
        let raised : Record := r.demoulded fun q => { q with peakForce := max q.peakForce v.toNat }
        let stalled : Record :=
          let w := raised.demoulded fun q => { q with stalls := min (q.stalls + 1) 255 }
          { w with flags := w.flags ||| (1#16 <<< 8) }
        let limit : Nat := match d.state with
          | .homing => last.ceiling
          | .probing => if d.probePhase = .out then max 1 (p.ceiling * cy.recipe.scanForce / 100) else p.ceiling
          | _ => p.ceiling
        let force (x : Block) : Prop := deliverReading (signal .ejectForce) v edge b = x
        let retracts (x : Block) : Block :=
          if issueOk b st = true then
            ordered st { mask := d.mask, target := retract, ceiling := p.ceiling, speed := p.speed } p.timeout
              (modDms st (fun d => { d with state := .retracting }) x)
          else haltedAt st .sensor 0 .step x
        (near v →
          (d.state = .stroking → p.dwell ≠ 0 → pos (modDms st (fun d =>
            { d with state := .dwell, dwellTimer := some { elapsed := 0, length := p.dwell } }) (freed b))) ∧
          (d.state = .stroking → p.dwell = 0 → pos (passed st cy.steps last d.stepPos
            (writes i (done r) (idle (modDms st (fun d => { d with state := .dwell }) (freed b)))))) ∧
          (d.state = .retracting → d.scanFollows = false → pos (issued st p d.mask (writes i retried
            (modDms st (fun d => { d with retries := d.retries + 1 }) (freed b))))) ∧
          (∀ k, d.state = .retracting → d.scanFollows = true → first 0 k → pos (outward p k
            (modDms st (fun d => { d with scanFollows := false, probeStuck := 0 }) (freed b)))) ∧
          (∀ g, d.state = .probing → d.probePhase = .out → d.probeGroup = some g → pos (back p g (freed b))) ∧
          (∀ g, d.state = .probing → d.probePhase = .back → d.probeGroup = some g →
            let y := modDms st (fun d => { d with probePhase := .rest }) (freed b)
            (p.dwell ≠ 0 → pos (modDms st (fun d =>
              { d with dwellTimer := some { elapsed := 0, length := p.dwell } }) y)) ∧
            (p.dwell = 0 → ∃ x, pos x ∧ rested g (idle y) x))) ∧
        (∀ g, d.stepTimer ≠ none → d.state = .probing → d.probePhase = .out → d.probeGroup = some g →
          stepFires (stuckBack p g b)) ∧
        ((¬ moving ∨ v ≤ limit) → force (writes i raised b)) ∧
        ((limit : Int) < v →
          (d.state = .stroking →
            (d.retries < cy.recipe.maxRetries → force (retracts (writes i stalled b))) ∧
            (cy.recipe.maxRetries ≤ d.retries → cy.recipe.scanEnable = true →
              force (retracts (modDms st (fun d => { d with scanFollows := true }) (writes i stalled b)))) ∧
            (cy.recipe.maxRetries ≤ d.retries → cy.recipe.scanEnable = false →
              force (haltedAt st .stall d.mask .step (writes i (united stalled d.mask) b)))) ∧
          (d.state = .retracting →
            force (haltedAt st .retractStall d.mask .step (writes i (united stalled d.mask) b))) ∧
          (d.state = .homing → force (haltedAt st .homeStall 0 .homing (writes i stalled b))) ∧
          (∀ g, d.state = .probing → d.probeGroup = some g →
            let m := d.probeStuck ||| (1#8 <<< g)
            (d.probePhase = .out → force (stuckBack p g (writes i raised b))) ∧
            (d.probePhase = .back → force (haltedAt st .retractStall m .step (writes i (united stalled m) b))))) ∧
        (let x := modDms st (fun d => { d with resume := .none }) b
         let held (x : Block) : Prop := deliverReading (signal .hold) v edge b = x ∧ deliverStale (signal .hold) b = x
         ((d.state ≠ .paused ∨ heldOf b (signal .hold) = 1) → held b) ∧
         (d.state = .paused → heldOf b (signal .hold) ≠ 1 →
           (d.resume = .step → held (issued st p d.mask x)) ∧ (d.resume = .homing → held (homed st last x)) ∧
           (∀ g, d.resume = .probe → d.probeGroup = some g → held (outward p g
             (modDms st (fun d => { d with probeStuck := d.probeStuck &&& ~~~(1#8 <<< g) }) x)))))))

/-! ### Tables -/

/-- TABLE_WRITE (R28, R30, R43, R45 to R50, R53 to R56, R184, R186): a step byte other than +1 or −1 is BAD_REQUEST, asked of
the master alone and before STORING (log 14); while STORING it is BUSY with a count of 0. Otherwise the
entries are written one after another, upward or downward; the reply carries how many were, with OK when all were, else with
the status of the first that was not; a refused write changes nothing. An index outside its table is BAD_INDEX, an entry out
of range BAD_ENTRY. Zone: NOT_ALLOWED for a change of enabled, station or platen with a station concerned not in OFF,
BAD_ENTRY for a seventh drive node or a channel named twice; an enabled zone is OFF at its reset values with its timer
started, a disabled one DISABLED; a lowered ceiling lowers duties and base at once; a changed rated power is a budget event.
Recipe and Step are stored, a recipe with the former revision plus one. Station is stored. Line Settings: own address,
HISTORY_HIGH, overload and a budget event; new Z, S or window code clear the window; a session in LOADING is evaluated. Map:
BAD_ENTRY for a key or target in use; the entry is NEVER, SENSOR_STALE judged, the owner of a FRESH former target takes a
stale event. A Recipe or Step write is an event at which each READY station in production takes the cycle-open test (R68,
`ProduceAndStop`); after a Recipe write the stations outside a cycle that are bound to it move their targets (R106). The
model's readings and choices: the arbiter's decision after each entry (log 5), the count byte of a BUSY reply (log 13), ranges
before check 1 of R46 (log 16), the order of a write's effects (logs 29, 36), a BLIND zone's base lowered at every lowering of
the ceiling that it exceeds (log 40). -/
def Obligations.TableWrite : Prop :=
  (∀ (q : Sender) (t : TableId) (id start stepB count : Byte) (es : List Byte) (s : State) (s1 : Block),
    let body := [id, start, stepB, count] ++ es
    admitted (mgmtRequest q 0x02 body) s.toBlock s1 → tableOf id.toNat = some t →
    es.length = count.toNat * writtenSize t → stepB ≠ 0x01 → stepB ≠ 0xFF →
    answered (.tableWrite q body) s q 0x02 .badRequest [0] s1) ∧
  (∀ (q : Sender) (t : TableId) (id start stepB count : Byte) (d : Int) (es : List (List Byte)) (s : State) (s1 : Block),
    let body := [id, start, stepB, count] ++ es.flatten
    let at_ (k : Nat) : Int := (start.toNat : Int) + k * d
    admitted (mgmtRequest q 0x02 body) s.toBlock s1 → tableOf id.toNat = some t → stepByte stepB.toNat = some d →
    es.length = count.toNat → (∀ e ∈ es, e.length = writtenSize t) →
    (s1.mga.image = .storing → answered (.tableWrite q body) s q 0x02 .busy [0] s1) ∧
    (s1.mga.image ≠ .storing → ∀ (bs : Nat → Block), bs 0 = s1 →
      (∀ (k : Nat) e, es[k]? = some e → bs (k + 1) = arbitrate (writeEntry t (at_ k) e (bs k)).2) →
      ((∀ (k : Nat) e, es[k]? = some e → (writeEntry t (at_ k) e (bs k)).1 = .ok) →
        answered (.tableWrite q body) s q 0x02 .ok [count] (bs es.length)) ∧
      (∀ (n : Nat) e st, es[n]? = some e → (writeEntry t (at_ n) e (bs n)).1 = st → st ≠ .ok →
        (∀ (k : Nat) e', k < n → es[k]? = some e' → (writeEntry t (at_ k) e' (bs k)).1 = .ok) →
        answered (.tableWrite q body) s q 0x02 st [byteOf n] (bs n)))) ∧
  ∀ (e : List Byte) (b : Block),
    (∀ t (i : Int), ((writeEntry t i e b).1 ≠ .ok → (writeEntry t i e b).2 = b) ∧
      ((i < 0 ∨ (tableCount t : Int) ≤ i) → writeEntry t i e b = (.badIndex, b))) ∧
    (∀ z : Fin 32,
      let w := writeEntry .zone z.val e b
      let o := entryOf b z
      (zoneEntryOf e = none → w = (.badEntry, b)) ∧
      (∀ x, zoneEntryOf e = some x →
        let changes := x.enabled ≠ o.enabled ∨ x.station ≠ o.station ∨ x.platen ≠ o.platen
        let offs := stateOf b o.station = .off ∧ stateOf b x.station = .off
        let zones := vset b.tab.zones z x
        let fits := (∃ nodes : List Nat, nodes.length ≤ 6 ∧ ∀ k, (vget zones k).enabled = true →
            (vget zones k).driveNode ∈ nodes) ∧
          ∀ j k, j ≠ k → (vget zones j).enabled = true → (vget zones k).enabled = true →
            ¬ ((vget zones j).driveNode = (vget zones k).driveNode ∧
              (vget zones j).driveChannel = (vget zones k).driveChannel)
        let put : Block := { b with tab := { b.tab with zones := zones } }
        let anew (state : ZoneState) (timer : Timer) : Block :=
          modStc x.station (fun c => { c with inBand := vset c.inBand z false })
            { modZone z (fun _ =>
                { state := state, cause := .none, wsp := 0, iq := 0, r := 0, g := 0, blindBase := 0, blindHold := none
                  slot := .zero, faults0 := 0, faults1 := 0, windowPos := 0, windowLen := x.scanWindow
                  windowMargin := x.switchMargin, timer := timer, inBand := false, lastTarget := 0 }) put with
              pwa := { b.pwa with allowance := vset b.pwa.allowance z 0 } }
        let turned : Block :=
          if x.enabled = o.enabled then put
          else if x.enabled = true then anew .off (some { elapsed := 0, length := (x.codeN + 1) * 2 ^ x.codeM * 10 })
          else anew .disabled none
        let k := zoneOf turned z
        let low := min k.r x.dutyCeiling
        let capped : Zone := { k with
          r := low, g := min k.g low
          blindBase := if k.state = .blind then min k.blindBase x.dutyCeiling else k.blindBase }
        let lowered : Block :=
          if x.dutyCeiling < o.dutyCeiling then
            (if min k.g low = k.g then modZone z (fun _ => capped) turned
             else postDuty z (modZone z (fun _ => capped) turned))
          else turned
        (changes → ¬ offs → w = (.notAllowed, b)) ∧
        ((¬ changes ∨ offs) → ¬ fits → w = (.badEntry, b)) ∧
        ((¬ changes ∨ offs) → fits → w = (.ok, event (fun _ =>
          if x.enabled = true ∧ o.ratedPower ≠ x.ratedPower then budgetEvent lowered else lowered) b)))) ∧
    (∀ k : Fin 16,
      let w := writeEntry .recipe k.val e b
      (recipeOf e = none → w = (.badEntry, b)) ∧
      (∀ x, recipeOf e = some x →
        let put : Block := { b with tab := { b.tab with
          recipes := vset b.tab.recipes k { x with revision := ((vget b.tab.recipes k).revision + 1) % 256 } } }
        let moved (st : Station) (y : Block) : Block :=
          if (stcOf y st).bound = some k ∧ isCycleState (stateOf y st) = false then event (moveTargets st) y else y
        w = (.ok, moved .b (moved .a (event (fun _ => testStations put) b))) ∧ w.2.tab = put.tab ∧
        ((∀ st, stateOf b st = .ready → (stcOf b st).production = false) →
          ¬ (stateOf b .a = .ready ∧ stateOf b .b = .ready) → (∀ st, targetsHeld put st) → w.2 = put))) ∧
    (∀ st, moveTargets st b = (zonesOf b st).foldl (fun y z =>
      if (zoneOf y z).inBand = true ∧ zoneTarget y z ≠ (zoneOf y z).lastTarget then
        zoneReport st z false (modZone z (fun c => { c with inBand := false }) y)
      else y) b) ∧
    (∀ k : Fin 64,
      let w := writeEntry .step k.val e b
      (stepEntryOf e = none → w = (.badEntry, b)) ∧
      (∀ x, stepEntryOf e = some x →
        let put : Block := { b with tab := { b.tab with steps := vset b.tab.steps k x } }
        w = (.ok, event (fun _ => testStations put) b) ∧ w.2.tab = put.tab ∧
        ((∀ st, stateOf b st = .ready → (stcOf b st).production = false) →
          ¬ (stateOf b .a = .ready ∧ stateOf b .b = .ready) → w.2 = put))) ∧
    (∀ st, writeEntry .station (stationNum st) e b = (match stationEntryOf e with
      | some x => (.ok, { b with tab := { b.tab with stations := b.tab.stations.set st x } })
      | none => (.badEntry, b))) ∧
    ((lineOf e = none → writeEntry .line 0 e b = (.badEntry, b)) ∧
      ∀ x, lineOf e = some x →
        let o := b.tab.line
        let ev (y : Block) : Block := match y.scu.session with
          | some u => if u.state = .loading then evaluated u y else y
          | none => y
        let excess (y : Block) : Bool := match y.scu.latestGross with
          | some g => decide ((x.capacity : Int) < g)
          | none => false
        let put : Block := setLevel .historyHigh (decide (x.watermark ≤ countSlots isCollectable b.hst))
          { b with tab := { b.tab with line := x }, rpu := { b.rpu with ownAddress := x.own } }
        let y : Block := if o.zero = x.zero ∧ o.span = x.span ∧ o.windowCode = x.windowCode then put
          else ev { put with scu := { b.scu with window := [], stable := false, dwell := none } }
        writeEntry .line 0 e b = (.ok, event (fun _ => budgetEvent (ev
          { setLevel .scaleOverload (excess b) y with scu := { y.scu with overload := excess b } })) b)) ∧
    (∀ k : Fin 96,
      let w := writeEntry .map k.val e b
      let old := vget b.tab.map k
      let clash (x : MapConfig) : Prop := ∃ j d, j ≠ k ∧ (vget b.tab.map j).config = some d ∧
        ((d.node = x.node ∧ d.channel = x.channel) ∨ d.target = x.target)
      (mapConfigOf e = none → w = (.badEntry, b)) ∧
      (∀ x, mapConfigOf e = some (some x) → clash x → w = (.badEntry, b)) ∧
      (∀ c, mapConfigOf e = some c → (∀ x, c = some x → ¬ clash x) →
        let map := vset b.tab.map k
          { config := c, freshness := .never, held := 0, quality := 4, age := 0, jumps := 0 }
        ∀ stale : Bool, (stale = true ↔ ∃ j, (vget map j).config ≠ none ∧ (vget map j).freshness = .stale) →
          let put : Block := setLevel .sensorStale stale { b with tab := { b.tab with map := map } }
          (∀ d, old.config = some d → old.freshness = .fresh → w = (.ok, event (fun _ => deliverStale d.target put) b)) ∧
          ((old.config = none ∨ old.freshness ≠ .fresh) → w = (.ok, put))))

/-- Every entry in range is read back from its own bytes, in each of the six tables (R26, R43, R45, R48, R50, R53, R54),
and every entry read from bytes is in range; the bytes have the written size of their table. -/
def Obligations.TableEntriesRoundTrip : Prop :=
  (∀ e : ZoneEntry, zoneInRange e = true → zoneEntryOf (zoneEntryBytes e) = some e ∧ (zoneEntryBytes e).length = 33) ∧
  (∀ e : Recipe, recipeInRange e = true → e.revision < 256 →
    recipeOf (recipeBytes e) = some e ∧ (recipeBytes e).length = 36) ∧
  (∀ e : StepEntry, stepInRange e = true → stepEntryOf (stepEntryBytes e) = some e ∧ (stepEntryBytes e).length = 12) ∧
  (∀ e : StationEntry, stationInRange e = true →
    stationEntryOf (stationEntryBytes e) = some e ∧ (stationEntryBytes e).length = 6) ∧
  (∀ e : LineSettings, lineInRange e = true → lineOf (lineBytes e) = some e ∧ (lineBytes e).length = 31) ∧
  (∀ c : Option MapConfig, (∀ x, c = some x → mapInRange x = true) →
    mapConfigOf (mapConfigBytes c) = some c ∧ (mapConfigBytes c).length = 9) ∧
  (∀ (bs : List Byte) e, zoneEntryOf bs = some e → zoneInRange e = true) ∧
  (∀ (bs : List Byte) e, recipeOf bs = some e → recipeInRange e = true) ∧
  (∀ (bs : List Byte) e, stepEntryOf bs = some e → stepInRange e = true) ∧
  (∀ (bs : List Byte) e, stationEntryOf bs = some e → stationInRange e = true) ∧
  (∀ (bs : List Byte) e, lineOf bs = some e → lineInRange e = true) ∧
  (∀ (bs : List Byte) e, mapConfigOf bs = some (some e) → mapInRange e = true)

/-! ### Conditions, flags and verdicts -/

/-- A level condition (R187): it is present while its condition lasts; its rise, and only its rise, sets its latch, which
the end of the level does not clear. Nothing else changes. -/
def Obligations.ConditionLevels : Prop :=
  ∀ (c : Cond) (on : Bool) (s : Block),
    (∀ k, k < 23 → (setLevel c on s).cdu.present.getLsbD k =
      (if k = condNum c then on else s.cdu.present.getLsbD k)) ∧
    (∀ k, k < 23 → (setLevel c on s).cdu.latched.getLsbD k =
      (s.cdu.latched.getLsbD k || (decide (k = condNum c) && on && !s.cdu.present.getLsbD k))) ∧
    setLevel c on s = { s with cdu := { s.cdu with
      present := (setLevel c on s).cdu.present, latched := (setLevel c on s).cdu.latched } }

/-- The close of an OPEN record (R175): its closed-at time is the line time, where that is valid (R172), its verdict the
first line of the table that its flags meet, its slot CLOSED, and HISTORY_HIGH is judged: present exactly while the
CLOSED and SENT records reach the watermark. Nothing else of the record, no other slot and no other block changes. The
table: ABORTED with flag 0; else REJECT with any of the flags 1 to 5; else SUSPECT with any of 6 to 8; else GOOD, whatever
the other flags are. -/
def Obligations.RecordCloses : Prop :=
  (∀ (n : Nat) (s : Block) (i : Fin 48) (r : Record), openIn s i n r →
    let slots := vset s.hst.slots i
      (.held .closed { r with closedAt := s.hst.lineTime, verdict := verdictOf r.flags })
    closeRecord n s = setLevel .historyHigh
      (decide (s.tab.line.watermark ≤ (allSlots.filter fun j => isCollectable (vget slots j)).length))
      { s with hst := { s.hst with slots := slots } }) ∧
  ∀ f : BitVec 16,
    (f.getLsbD 0 = true → verdictOf f = .aborted) ∧
    (f.getLsbD 0 = false → (∃ k, 1 ≤ k ∧ k ≤ 5 ∧ f.getLsbD k = true) → verdictOf f = .reject) ∧
    (f.getLsbD 0 = false → (∀ k, 1 ≤ k → k ≤ 5 → f.getLsbD k = false) →
      ((∃ k, 6 ≤ k ∧ k ≤ 8 ∧ f.getLsbD k = true) → verdictOf f = .suspect) ∧
      ((∀ k, 6 ≤ k → k ≤ 8 → f.getLsbD k = false) → verdictOf f = .good))

/-! ### Invariants that every step keeps -/

/-- No step takes a queue past its capacity, the consecutive-forward count past 4, or a counter past 16 bits (R9, R11,
R17, R19, R182). -/
def Obligations.QueuesStayWithinCapacity : Prop :=
  ∀ s t : State, queuesFit s.toBlock → step s = .next t → queuesFit t.toBlock

/-- What a command other than a reset may make of a record, whatever the state (R169, R174, R175, R179): an OPEN record
keeps its slot, number, station and flags and ends up OPEN or CLOSED; a CLOSED one is never changed again and ends up
CLOSED or SENT; a SENT one stands until a RELEASE of its number or a greater one frees it, and a cycle opened in that event
(R68) may take its slot. -/
def Obligations.RecordsKept : Prop :=
  ∀ (c : Instr) (s t : State), isReset c = false → exec c s = .next t →
    ∀ i, slotKept c (vget s.hst.slots i) (vget t.hst.slots i)

/-- The permit set follows the station's state (R84), a cycle context is there exactly in a cycle state (R59), and a
sequencer at work or halted belongs to a station in DEMOULDING or HELD (R78 to R81): every step keeps this. -/
def Obligations.CycleInvariantKept : Prop :=
  ∀ s t : State, cycleSound s.toBlock → step s = .next t → cycleSound t.toBlock

/-- The control queue never holds more than 12 frames (R12): at most six DRIVE frames, each for another node, one PERMIT
and one STROKE frame for each station and two WEIGH frames; and a disabled zone is DISABLED with no timer and no grant
(R87). Every step keeps this. -/
def Obligations.ControlQueueBounded : Prop :=
  ∀ s t : State, controlSound s.toBlock → step s = .next t → controlSound t.toBlock ∧ t.rpu.controlQ.length ≤ 12

/-- After reset the four invariants hold. -/
def Obligations.InvariantsAtReset : Prop :=
  queuesFit State.reset.toBlock ∧ cycleSound State.reset.toBlock ∧ controlSound State.reset.toBlock ∧
    (∀ i, vget State.reset.hst.slots i = .free)
end

