-- ==== Sys2Proof/Laws/State.lean ====
section
/-! SUPPORT. The small lemmas of the state: containers, and for each named update what it leaves of every block. -/

namespace Sys2Proof.Machine

open Sys2Proof

/-! ### Containers -/

section Containers

variable {α β : Type} {n : Nat}

@[simp] theorem vget_vset_self (v : Vector α n) (i : Fin n) (x : α) : vget (vset v i x) i = x := by
  simp [vget, vset]

theorem vget_vset_ne (v : Vector α n) {i j : Fin n} (x : α) (h : i ≠ j) : vget (vset v i x) j = vget v j := by
  have : i.val ≠ j.val := fun e => h (Fin.ext e)
  simp [vget, vset, this]

theorem vget_vset (v : Vector α n) (i j : Fin n) (x : α) :
    vget (vset v i x) j = if i = j then x else vget v j := by
  split
  next h => subst h; simp
  next h => exact vget_vset_ne v x h

@[simp] theorem vget_vmap (f : α → β) (v : Vector α n) (i : Fin n) : vget (vmap f v) i = f (vget v i) := by
  simp [vget, vmap]

theorem vget_ext {v w : Vector α n} (h : ∀ i, vget v i = vget w i) : v = w := by
  apply Vector.ext
  intro i hi
  exact h ⟨i, hi⟩

@[simp] theorem Pair.get_set_self (p : Pair α) (st : Station) (x : α) : (p.set st x).get st = x := by
  cases st <;> rfl

theorem Pair.get_set (p : Pair α) (st st' : Station) (x : α) :
    (p.set st x).get st' = if st = st' then x else p.get st' := by
  cases st <;> cases st' <;> rfl

@[simp] theorem Pair.get_set_other (p : Pair α) (st : Station) (x : α) :
    (p.set st x).get (otherStation st) = p.get (otherStation st) := by
  cases st <;> rfl

theorem Pair.get_ext {p q : Pair α} (h : ∀ st, p.get st = q.get st) : p = q := by
  cases p; cases q
  have ha := h .a
  have hb := h .b
  simp only [Pair.get] at ha hb
  simp [ha, hb]

end Containers

/-! ### What each update leaves as it was -/

section Updates

variable (s : Block)
@[simp] theorem modStc_rpu (st : Station) (f : Stc → Stc) : (modStc st f s).rpu = s.rpu := rfl
@[simp] theorem modStc_tab (st : Station) (f : Stc → Stc) : (modStc st f s).tab = s.tab := rfl
@[simp] theorem modStc_zrg (st : Station) (f : Stc → Stc) : (modStc st f s).zrg = s.zrg := rfl
@[simp] theorem modStc_pwa (st : Station) (f : Stc → Stc) : (modStc st f s).pwa = s.pwa := rfl
@[simp] theorem modStc_scu (st : Station) (f : Stc → Stc) : (modStc st f s).scu = s.scu := rfl
@[simp] theorem modStc_dms (st : Station) (f : Stc → Stc) : (modStc st f s).dms = s.dms := rfl
@[simp] theorem modStc_hst (st : Station) (f : Stc → Stc) : (modStc st f s).hst = s.hst := rfl
@[simp] theorem modStc_cdu (st : Station) (f : Stc → Stc) : (modStc st f s).cdu = s.cdu := rfl
@[simp] theorem modStc_mga (st : Station) (f : Stc → Stc) : (modStc st f s).mga = s.mga := rfl
@[simp] theorem modStc_choices (st : Station) (f : Stc → Stc) : (modStc st f s).choices = s.choices := rfl

@[simp] theorem modDms_rpu (st : Station) (f : Dms → Dms) : (modDms st f s).rpu = s.rpu := rfl
@[simp] theorem modDms_tab (st : Station) (f : Dms → Dms) : (modDms st f s).tab = s.tab := rfl
@[simp] theorem modDms_stc (st : Station) (f : Dms → Dms) : (modDms st f s).stc = s.stc := rfl
@[simp] theorem modDms_zrg (st : Station) (f : Dms → Dms) : (modDms st f s).zrg = s.zrg := rfl
@[simp] theorem modDms_pwa (st : Station) (f : Dms → Dms) : (modDms st f s).pwa = s.pwa := rfl
@[simp] theorem modDms_scu (st : Station) (f : Dms → Dms) : (modDms st f s).scu = s.scu := rfl
@[simp] theorem modDms_hst (st : Station) (f : Dms → Dms) : (modDms st f s).hst = s.hst := rfl
@[simp] theorem modDms_cdu (st : Station) (f : Dms → Dms) : (modDms st f s).cdu = s.cdu := rfl
@[simp] theorem modDms_mga (st : Station) (f : Dms → Dms) : (modDms st f s).mga = s.mga := rfl
@[simp] theorem modDms_choices (st : Station) (f : Dms → Dms) : (modDms st f s).choices = s.choices := rfl

@[simp] theorem modZone_rpu (z : Fin 32) (f : Zone → Zone) : (modZone z f s).rpu = s.rpu := rfl
@[simp] theorem modZone_tab (z : Fin 32) (f : Zone → Zone) : (modZone z f s).tab = s.tab := rfl
@[simp] theorem modZone_stc (z : Fin 32) (f : Zone → Zone) : (modZone z f s).stc = s.stc := rfl
@[simp] theorem modZone_pwa (z : Fin 32) (f : Zone → Zone) : (modZone z f s).pwa = s.pwa := rfl
@[simp] theorem modZone_scu (z : Fin 32) (f : Zone → Zone) : (modZone z f s).scu = s.scu := rfl
@[simp] theorem modZone_dms (z : Fin 32) (f : Zone → Zone) : (modZone z f s).dms = s.dms := rfl
@[simp] theorem modZone_hst (z : Fin 32) (f : Zone → Zone) : (modZone z f s).hst = s.hst := rfl
@[simp] theorem modZone_cdu (z : Fin 32) (f : Zone → Zone) : (modZone z f s).cdu = s.cdu := rfl
@[simp] theorem modZone_mga (z : Fin 32) (f : Zone → Zone) : (modZone z f s).mga = s.mga := rfl
@[simp] theorem modZone_choices (z : Fin 32) (f : Zone → Zone) : (modZone z f s).choices = s.choices := rfl

@[simp] theorem modCounters_tab (f : Counters → Counters) : (modCounters f s).tab = s.tab := rfl
@[simp] theorem modCounters_stc (f : Counters → Counters) : (modCounters f s).stc = s.stc := rfl
@[simp] theorem modCounters_zrg (f : Counters → Counters) : (modCounters f s).zrg = s.zrg := rfl
@[simp] theorem modCounters_pwa (f : Counters → Counters) : (modCounters f s).pwa = s.pwa := rfl
@[simp] theorem modCounters_scu (f : Counters → Counters) : (modCounters f s).scu = s.scu := rfl
@[simp] theorem modCounters_dms (f : Counters → Counters) : (modCounters f s).dms = s.dms := rfl
@[simp] theorem modCounters_hst (f : Counters → Counters) : (modCounters f s).hst = s.hst := rfl
@[simp] theorem modCounters_cdu (f : Counters → Counters) : (modCounters f s).cdu = s.cdu := rfl
@[simp] theorem modCounters_mga (f : Counters → Counters) : (modCounters f s).mga = s.mga := rfl
@[simp] theorem modCounters_choices (f : Counters → Counters) : (modCounters f s).choices = s.choices := rfl

@[simp] theorem joinInfo_tab (f : InfoFrame) : (joinInfo f s).tab = s.tab := rfl
@[simp] theorem joinInfo_stc (f : InfoFrame) : (joinInfo f s).stc = s.stc := rfl
@[simp] theorem joinInfo_zrg (f : InfoFrame) : (joinInfo f s).zrg = s.zrg := rfl
@[simp] theorem joinInfo_pwa (f : InfoFrame) : (joinInfo f s).pwa = s.pwa := rfl
@[simp] theorem joinInfo_scu (f : InfoFrame) : (joinInfo f s).scu = s.scu := rfl
@[simp] theorem joinInfo_dms (f : InfoFrame) : (joinInfo f s).dms = s.dms := rfl
@[simp] theorem joinInfo_hst (f : InfoFrame) : (joinInfo f s).hst = s.hst := rfl
@[simp] theorem joinInfo_cdu (f : InfoFrame) : (joinInfo f s).cdu = s.cdu := rfl
@[simp] theorem joinInfo_mga (f : InfoFrame) : (joinInfo f s).mga = s.mga := rfl
@[simp] theorem joinInfo_choices (f : InfoFrame) : (joinInfo f s).choices = s.choices := rfl

@[simp] theorem latch_rpu (k : Nat) : (latch k s).rpu = s.rpu := rfl
@[simp] theorem latch_tab (k : Nat) : (latch k s).tab = s.tab := rfl
@[simp] theorem latch_stc (k : Nat) : (latch k s).stc = s.stc := rfl
@[simp] theorem latch_zrg (k : Nat) : (latch k s).zrg = s.zrg := rfl
@[simp] theorem latch_pwa (k : Nat) : (latch k s).pwa = s.pwa := rfl
@[simp] theorem latch_scu (k : Nat) : (latch k s).scu = s.scu := rfl
@[simp] theorem latch_dms (k : Nat) : (latch k s).dms = s.dms := rfl
@[simp] theorem latch_hst (k : Nat) : (latch k s).hst = s.hst := rfl
@[simp] theorem latch_mga (k : Nat) : (latch k s).mga = s.mga := rfl
@[simp] theorem latch_choices (k : Nat) : (latch k s).choices = s.choices := rfl

@[simp] theorem modHst_rpu (f : Hst → Hst) : (modHst f s).rpu = s.rpu := rfl
@[simp] theorem modHst_tab (f : Hst → Hst) : (modHst f s).tab = s.tab := rfl
@[simp] theorem modHst_stc (f : Hst → Hst) : (modHst f s).stc = s.stc := rfl
@[simp] theorem modHst_zrg (f : Hst → Hst) : (modHst f s).zrg = s.zrg := rfl
@[simp] theorem modHst_pwa (f : Hst → Hst) : (modHst f s).pwa = s.pwa := rfl
@[simp] theorem modHst_scu (f : Hst → Hst) : (modHst f s).scu = s.scu := rfl
@[simp] theorem modHst_dms (f : Hst → Hst) : (modHst f s).dms = s.dms := rfl
@[simp] theorem modHst_cdu (f : Hst → Hst) : (modHst f s).cdu = s.cdu := rfl
@[simp] theorem modHst_mga (f : Hst → Hst) : (modHst f s).mga = s.mga := rfl
@[simp] theorem modHst_choices (f : Hst → Hst) : (modHst f s).choices = s.choices := rfl

@[simp] theorem modScu_rpu (f : Scu → Scu) : (modScu f s).rpu = s.rpu := rfl
@[simp] theorem modScu_tab (f : Scu → Scu) : (modScu f s).tab = s.tab := rfl
@[simp] theorem modScu_stc (f : Scu → Scu) : (modScu f s).stc = s.stc := rfl
@[simp] theorem modScu_zrg (f : Scu → Scu) : (modScu f s).zrg = s.zrg := rfl
@[simp] theorem modScu_pwa (f : Scu → Scu) : (modScu f s).pwa = s.pwa := rfl
@[simp] theorem modScu_dms (f : Scu → Scu) : (modScu f s).dms = s.dms := rfl
@[simp] theorem modScu_hst (f : Scu → Scu) : (modScu f s).hst = s.hst := rfl
@[simp] theorem modScu_cdu (f : Scu → Scu) : (modScu f s).cdu = s.cdu := rfl
@[simp] theorem modScu_mga (f : Scu → Scu) : (modScu f s).mga = s.mga := rfl
@[simp] theorem modScu_choices (f : Scu → Scu) : (modScu f s).choices = s.choices := rfl

@[simp] theorem modEntry_rpu (i : Fin 96) (f : MapEntry → MapEntry) : (modEntry i f s).rpu = s.rpu := rfl
@[simp] theorem modEntry_stc (i : Fin 96) (f : MapEntry → MapEntry) : (modEntry i f s).stc = s.stc := rfl
@[simp] theorem modEntry_zrg (i : Fin 96) (f : MapEntry → MapEntry) : (modEntry i f s).zrg = s.zrg := rfl
@[simp] theorem modEntry_pwa (i : Fin 96) (f : MapEntry → MapEntry) : (modEntry i f s).pwa = s.pwa := rfl
@[simp] theorem modEntry_scu (i : Fin 96) (f : MapEntry → MapEntry) : (modEntry i f s).scu = s.scu := rfl
@[simp] theorem modEntry_dms (i : Fin 96) (f : MapEntry → MapEntry) : (modEntry i f s).dms = s.dms := rfl
@[simp] theorem modEntry_hst (i : Fin 96) (f : MapEntry → MapEntry) : (modEntry i f s).hst = s.hst := rfl
@[simp] theorem modEntry_cdu (i : Fin 96) (f : MapEntry → MapEntry) : (modEntry i f s).cdu = s.cdu := rfl
@[simp] theorem modEntry_mga (i : Fin 96) (f : MapEntry → MapEntry) : (modEntry i f s).mga = s.mga := rfl
@[simp] theorem modEntry_choices (i : Fin 96) (f : MapEntry → MapEntry) : (modEntry i f s).choices = s.choices := rfl

@[simp] theorem dropAllowance_rpu (z : Fin 32) : (dropAllowance z s).rpu = s.rpu := rfl
@[simp] theorem dropAllowance_tab (z : Fin 32) : (dropAllowance z s).tab = s.tab := rfl
@[simp] theorem dropAllowance_stc (z : Fin 32) : (dropAllowance z s).stc = s.stc := rfl
@[simp] theorem dropAllowance_zrg (z : Fin 32) : (dropAllowance z s).zrg = s.zrg := rfl
@[simp] theorem dropAllowance_scu (z : Fin 32) : (dropAllowance z s).scu = s.scu := rfl
@[simp] theorem dropAllowance_dms (z : Fin 32) : (dropAllowance z s).dms = s.dms := rfl
@[simp] theorem dropAllowance_hst (z : Fin 32) : (dropAllowance z s).hst = s.hst := rfl
@[simp] theorem dropAllowance_cdu (z : Fin 32) : (dropAllowance z s).cdu = s.cdu := rfl
@[simp] theorem dropAllowance_mga (z : Fin 32) : (dropAllowance z s).mga = s.mga := rfl
@[simp] theorem dropAllowance_choices (z : Fin 32) : (dropAllowance z s).choices = s.choices := rfl

@[simp] theorem startBudget_rpu : (startBudget s).rpu = s.rpu := rfl
@[simp] theorem startBudget_tab : (startBudget s).tab = s.tab := rfl
@[simp] theorem startBudget_stc : (startBudget s).stc = s.stc := rfl
@[simp] theorem startBudget_zrg : (startBudget s).zrg = s.zrg := rfl
@[simp] theorem startBudget_scu : (startBudget s).scu = s.scu := rfl
@[simp] theorem startBudget_dms : (startBudget s).dms = s.dms := rfl
@[simp] theorem startBudget_hst : (startBudget s).hst = s.hst := rfl
@[simp] theorem startBudget_cdu : (startBudget s).cdu = s.cdu := rfl
@[simp] theorem startBudget_mga : (startBudget s).mga = s.mga := rfl
@[simp] theorem startBudget_choices : (startBudget s).choices = s.choices := rfl

end Updates

/-! ### What each update changes -/

section Changes

variable (s : Block)

theorem stcOf_modStc (st st' : Station) (f : Stc → Stc) :
    stcOf (modStc st f s) st' = if st = st' then f (stcOf s st) else stcOf s st' := by
  cases st <;> cases st' <;> rfl

@[simp] theorem stcOf_modStc_self (st : Station) (f : Stc → Stc) :
    stcOf (modStc st f s) st = f (stcOf s st) := by
  cases st <;> rfl

@[simp] theorem stcOf_modStc_other (st : Station) (f : Stc → Stc) :
    stcOf (modStc st f s) (otherStation st) = stcOf s (otherStation st) := by
  cases st <;> rfl

theorem dmsOf_modDms (st st' : Station) (f : Dms → Dms) :
    dmsOf (modDms st f s) st' = if st = st' then f (dmsOf s st) else dmsOf s st' := by
  cases st <;> cases st' <;> rfl

@[simp] theorem dmsOf_modDms_self (st : Station) (f : Dms → Dms) :
    dmsOf (modDms st f s) st = f (dmsOf s st) := by
  cases st <;> rfl

@[simp] theorem dmsOf_modDms_other (st : Station) (f : Dms → Dms) :
    dmsOf (modDms st f s) (otherStation st) = dmsOf s (otherStation st) := by
  cases st <;> rfl

theorem zoneOf_modZone (z z' : Fin 32) (f : Zone → Zone) :
    zoneOf (modZone z f s) z' = if z = z' then f (zoneOf s z) else zoneOf s z' := by
  simp only [zoneOf, modZone, vget_vset]

@[simp] theorem zoneOf_modZone_self (z : Fin 32) (f : Zone → Zone) :
    zoneOf (modZone z f s) z = f (zoneOf s z) := by
  simp [zoneOf_modZone]

@[simp] theorem modCounters_counters (f : Counters → Counters) :
    (modCounters f s).rpu.counters = f s.rpu.counters := rfl

@[simp] theorem joinInfo_infoQ (f : InfoFrame) : (joinInfo f s).rpu.infoQ = s.rpu.infoQ ++ [f] := rfl

@[simp] theorem modHst_hst (f : Hst → Hst) : (modHst f s).hst = f s.hst := rfl

@[simp] theorem modScu_scu (f : Scu → Scu) : (modScu f s).scu = f s.scu := rfl

@[simp] theorem latch_present (k : Nat) : (latch k s).cdu.present = s.cdu.present := rfl

@[simp] theorem latch_mask (k : Nat) : (latch k s).cdu.mask = s.cdu.mask := rfl

@[simp] theorem latch_gate (k : Nat) : (latch k s).cdu.gateOpen = s.cdu.gateOpen := rfl

end Changes

end Sys2Proof.Machine
end

