-- ==== Sys2Proof/Laws/Ops.lean ====
section
/-! SUPPORT. For each shared operation, once, all it can change: an equation that leaves the other blocks of its argument
as they were, and the fields of the changed block. -/

namespace Sys2Proof.Machine

open Sys2Proof

/-! ### The arbiter (R11) -/

/-- A decision of the arbiter changes only the three queues, the count and the line. -/
theorem arbitrate_spec (s : Block) :
    arbitrate s = { s with rpu := { s.rpu with
      forwardQ := (arbitrate s).rpu.forwardQ, controlQ := (arbitrate s).rpu.controlQ
      infoQ := (arbitrate s).rpu.infoQ, forwardCount := (arbitrate s).rpu.forwardCount
      onLine := (arbitrate s).rpu.onLine } } := by
  unfold arbitrate
  split
  · simp only [decideOut]
    generalize (if (decide (s.rpu.forwardCount < Config.forwardRun) ||
      s.rpu.controlQ.isEmpty && s.rpu.infoQ.isEmpty) = true then s.rpu.forwardQ else []) = fq
    cases fq <;> cases hc : s.rpu.controlQ <;> cases hi : s.rpu.infoQ <;> simp [hc, hi]
    · have e : s = { s with rpu := { s.rpu with controlQ := s.rpu.controlQ, infoQ := s.rpu.infoQ } } := rfl
      rw [hc, hi] at e
      exact e
  · rfl

section Arbiter

variable (s : Block)

@[simp] theorem arbitrate_tab : (arbitrate s).tab = s.tab := by rw [arbitrate_spec]
@[simp] theorem arbitrate_stc : (arbitrate s).stc = s.stc := by rw [arbitrate_spec]
@[simp] theorem arbitrate_zrg : (arbitrate s).zrg = s.zrg := by rw [arbitrate_spec]
@[simp] theorem arbitrate_pwa : (arbitrate s).pwa = s.pwa := by rw [arbitrate_spec]
@[simp] theorem arbitrate_scu : (arbitrate s).scu = s.scu := by rw [arbitrate_spec]
@[simp] theorem arbitrate_dms : (arbitrate s).dms = s.dms := by rw [arbitrate_spec]
@[simp] theorem arbitrate_hst : (arbitrate s).hst = s.hst := by rw [arbitrate_spec]
@[simp] theorem arbitrate_cdu : (arbitrate s).cdu = s.cdu := by rw [arbitrate_spec]
@[simp] theorem arbitrate_mga : (arbitrate s).mga = s.mga := by rw [arbitrate_spec]
@[simp] theorem arbitrate_choices : (arbitrate s).choices = s.choices := by rw [arbitrate_spec]
@[simp] theorem arbitrate_counters : (arbitrate s).rpu.counters = s.rpu.counters := by rw [arbitrate_spec]
@[simp] theorem arbitrate_inPort : (arbitrate s).rpu.inPort = s.rpu.inPort := by rw [arbitrate_spec]
@[simp] theorem arbitrate_outPort : (arbitrate s).rpu.outPort = s.rpu.outPort := by rw [arbitrate_spec]
@[simp] theorem arbitrate_ownAddress : (arbitrate s).rpu.ownAddress = s.rpu.ownAddress := by rw [arbitrate_spec]

end Arbiter

/-! ### Posts and conditions -/

/-- A post to the control queue changes only that queue. -/
theorem postControl_spec (f : List ControlFrame → List ControlFrame) (s : Block) :
    postControl f s = { s with rpu := { s.rpu with controlQ := (postControl f s).rpu.controlQ } } := by
  unfold postControl; split <;> rfl

/-- A posted duty changes only the control queue. -/
theorem postDuty_spec (z : Fin 32) (s : Block) :
    postDuty z s = { s with rpu := { s.rpu with controlQ := (postDuty z s).rpu.controlQ } } :=
  postControl_spec _ s

/-- A posted order changes only the control queue. -/
theorem postStroke_spec (st : Station) (o : StrokeOrder) (s : Block) :
    postStroke st o s = { s with rpu := { s.rpu with controlQ := (postStroke st o s).rpu.controlQ } } :=
  postControl_spec _ s

/-- A posted notice changes only the control queue. -/
theorem postWeigh_spec (n : WeighNotice) (s : Block) :
    postWeigh n s = { s with rpu := { s.rpu with controlQ := (postWeigh n s).rpu.controlQ } } :=
  postControl_spec _ s

/-- A PERMIT post changes the control queue and the station's refresh timer. -/
theorem postPermit_spec (st : Station) (s : Block) :
    postPermit st s = { s with
      rpu := { s.rpu with controlQ := (postPermit st s).rpu.controlQ }
      stc := s.stc.set st { stcOf s st with refresh := startTimer (s.tab.stations.get st).refresh } } := by
  unfold postPermit postControl
  simp only
  split <;> rfl

/-- A driven level changes the present set and, at a rise, the latch. -/
theorem setLevel_spec (c : Cond) (on : Bool) (s : Block) :
    setLevel c on s = { s with cdu := { s.cdu with
      present := setBit s.cdu.present (condNum c) on
      latched := if on && !s.cdu.present.getLsbD (condNum c) then setBit s.cdu.latched (condNum c) true
                 else s.cdu.latched } } := by
  unfold setLevel latch
  simp only
  split <;> rfl

/-- A reply joins the info queue, or counts REQ_DROP and latches QUEUE_DROP. -/
theorem postReply_spec (f : InfoFrame) (s : Block) :
    postReply f s = { s with
      rpu := { s.rpu with infoQ := (postReply f s).rpu.infoQ, counters := (postReply f s).rpu.counters }
      cdu := { s.cdu with latched := (postReply f s).cdu.latched } } := by
  unfold postReply; split <;> rfl

/-- NO_CYCLE changes the station's cause and the condition. -/
theorem setNoCycle_spec (st : Station) (cause : NoCycle) (s : Block) :
    setNoCycle st cause s = { s with
      stc := s.stc.set st { stcOf s st with noCycle := cause }
      cdu := (setNoCycle st cause s).cdu } := by
  unfold setNoCycle
  rw [setLevel_spec]
  rfl

section Posts

variable (s : Block)

@[simp] theorem setLevel_rpu (c : Cond) (on : Bool) : (setLevel c on s).rpu = s.rpu := by rw [setLevel_spec]
@[simp] theorem setLevel_tab (c : Cond) (on : Bool) : (setLevel c on s).tab = s.tab := by rw [setLevel_spec]
@[simp] theorem setLevel_stc (c : Cond) (on : Bool) : (setLevel c on s).stc = s.stc := by rw [setLevel_spec]
@[simp] theorem setLevel_zrg (c : Cond) (on : Bool) : (setLevel c on s).zrg = s.zrg := by rw [setLevel_spec]
@[simp] theorem setLevel_pwa (c : Cond) (on : Bool) : (setLevel c on s).pwa = s.pwa := by rw [setLevel_spec]
@[simp] theorem setLevel_scu (c : Cond) (on : Bool) : (setLevel c on s).scu = s.scu := by rw [setLevel_spec]
@[simp] theorem setLevel_dms (c : Cond) (on : Bool) : (setLevel c on s).dms = s.dms := by rw [setLevel_spec]
@[simp] theorem setLevel_hst (c : Cond) (on : Bool) : (setLevel c on s).hst = s.hst := by rw [setLevel_spec]
@[simp] theorem setLevel_mga (c : Cond) (on : Bool) : (setLevel c on s).mga = s.mga := by rw [setLevel_spec]
@[simp] theorem setLevel_choices (c : Cond) (on : Bool) : (setLevel c on s).choices = s.choices := by
  rw [setLevel_spec]
@[simp] theorem setLevel_mask (c : Cond) (on : Bool) : (setLevel c on s).cdu.mask = s.cdu.mask := by
  rw [setLevel_spec]

end Posts

/-! ### What keeps a station's events to themselves -/

/-- `t` differs from `s` at most in the control queue, the station controllers, the zone contexts, the records held and
the Condition Unit's present and latched sets. -/
def HeatOnly (s t : Block) : Prop :=
  t = { s with
    rpu := { s.rpu with controlQ := t.rpu.controlQ }
    stc := t.stc
    zrg := t.zrg
    hst := { s.hst with slots := t.hst.slots }
    cdu := { s.cdu with present := t.cdu.present, latched := t.cdu.latched } }

theorem HeatOnly.refl (s : Block) : HeatOnly s s := rfl

theorem HeatOnly.trans {a b c : Block} (h : HeatOnly a b) (k : HeatOnly b c) : HeatOnly a c := by
  unfold HeatOnly at *
  rw [k, h]

/-- A write into an open record changes only the records held (R174). -/
theorem modOpenRecord_spec (st : Station) (f : Record → Record) (s : Block) :
    modOpenRecord st f s = { s with hst := { s.hst with slots := (modOpenRecord st f s).hst.slots } } := by
  unfold modOpenRecord modRecord modHst
  split <;> rfl

/-- The judgement of the out-of-band allowance changes only the records held (R76). -/
theorem judgeAllowance_spec (st : Station) (s : Block) :
    judgeAllowance st s = { s with hst := { s.hst with slots := (judgeAllowance st s).hst.slots } } := by
  unfold judgeAllowance setFlag
  split
  · split
    · exact modOpenRecord_spec _ _ _
    · rfl
  · rfl

theorem heatOnly_modStc (st : Station) (f : Stc → Stc) (s : Block) : HeatOnly s (modStc st f s) := rfl

theorem heatOnly_modZone (z : Fin 32) (f : Zone → Zone) (s : Block) : HeatOnly s (modZone z f s) := rfl

theorem heatOnly_setLevel (c : Cond) (on : Bool) (s : Block) : HeatOnly s (setLevel c on s) := by
  rw [setLevel_spec]; rfl

theorem heatOnly_postPermit (st : Station) (s : Block) : HeatOnly s (postPermit st s) := by
  rw [postPermit_spec]; rfl

theorem heatOnly_postDuty (z : Fin 32) (s : Block) : HeatOnly s (postDuty z s) := by
  rw [postDuty_spec]; rfl

theorem heatOnly_setNoCycle (st : Station) (c : NoCycle) (s : Block) : HeatOnly s (setNoCycle st c s) :=
  (heatOnly_modStc _ _ _).trans (heatOnly_setLevel _ _ _)

theorem heatOnly_readyToPreheat (st : Station) (s : Block) : HeatOnly s (readyToPreheat st s) := by
  unfold readyToPreheat
  split
  · exact (heatOnly_modStc _ _ _).trans (heatOnly_setNoCycle _ _ _)
  · rfl

theorem heatOnly_clearHeat (st : Station) (s : Block) : HeatOnly s (clearHeat st s) :=
  (heatOnly_modStc _ _ _).trans (heatOnly_readyToPreheat _ _)

theorem heatOnly_startSettle (st : Station) (s : Block) : HeatOnly s (startSettle st s) := by
  unfold startSettle
  simp only
  split
  · split <;> rfl
  · rfl

theorem heatOnly_judgeAllowance (st : Station) (s : Block) : HeatOnly s (judgeAllowance st s) := by
  unfold HeatOnly
  rw [judgeAllowance_spec]

theorem heatOnly_judgeGate (st : Station) (s : Block) : HeatOnly s (judgeGate st s) := by
  unfold judgeGate
  split
  · exact (heatOnly_modStc _ _ _).trans (heatOnly_judgeAllowance _ _)
  · rfl

/-- A zone's report reaches its station: nothing but the station, its open record and NO_CYCLE (R66, R67, R75, R76). -/
theorem heatOnly_zoneReport (st : Station) (z : Fin 32) (band : Bool) (s : Block) :
    HeatOnly s (zoneReport st z band s) := by
  unfold zoneReport
  refine HeatOnly.trans ?_ (heatOnly_judgeGate _ _)
  refine (heatOnly_modStc st (fun c => { c with inBand := vset c.inBand z band }) s).trans ?_
  split
  · exact heatOnly_startSettle _ _
  · exact heatOnly_clearHeat _ _

theorem heatOnly_setBand (z : Fin 32) (band : Bool) (s : Block) : HeatOnly s (setBand z band s) := by
  unfold setBand
  split
  · rfl
  · exact (heatOnly_modZone _ _ _).trans (heatOnly_zoneReport _ _ _ _)

theorem heatOnly_foldl {α : Type} (f : α → Block → Block) (h : ∀ a s, HeatOnly s (f a s)) (l : List α) (s : Block) :
    HeatOnly s (l.foldl (fun s a => f a s) s) := by
  induction l generalizing s with
  | nil => rfl
  | cons a l ih => exact (h a s).trans (ih _)

theorem heatOnly_moveTargets (st : Station) (s : Block) : HeatOnly s (moveTargets st s) := by
  unfold moveTargets eachZone
  refine heatOnly_foldl (fun z s => if ((zoneOf s z).inBand && decide (zoneTarget s z ≠ (zoneOf s z).lastTarget)) = true
    then setBand z false s else s) (fun z s => ?_) _ _
  split
  · exact heatOnly_setBand _ _ _
  · rfl

theorem heatOnly_postIfChanged (b : Block) (st : Station) (s : Block) : HeatOnly s (postIfChanged b st s) := by
  unfold postIfChanged
  split
  · rfl
  · exact heatOnly_postPermit _ _

theorem heatOnly_postPermits (b s : Block) : HeatOnly s (postPermits b s) :=
  (heatOnly_postIfChanged _ _ _).trans (heatOnly_postIfChanged _ _ _)

theorem heatOnly_moveIfChanged (b : Block) (st : Station) (s : Block) : HeatOnly s (moveIfChanged b st s) := by
  unfold moveIfChanged
  split
  · rfl
  · exact heatOnly_moveTargets _ _

theorem heatOnly_moveAll (b s : Block) : HeatOnly s (moveAll b s) :=
  (heatOnly_moveIfChanged _ _ _).trans (heatOnly_moveIfChanged _ _ _)

/-- The close of an event adds to its effect only PERMIT posts and out-of-band reports (R84, R106). -/
theorem event_spec (f : Block → Block) (s : Block) : HeatOnly (f s) (event f s) := by
  unfold event
  exact (heatOnly_postPermits _ _).trans ((heatOnly_moveAll _ _).trans (heatOnly_postPermits _ _))

/-- With no target moved and no permit changed, the event is its effect. -/
theorem event_eq (f : Block → Block) (s : Block)
    (hp : ∀ st, permitOf (f s) st = permitOf s st)
    (hm : ∀ st, stateOf (f s) st = stateOf s st) : event f s = f s := by
  have h1 : postPermits s (f s) = f s := by
    simp [postPermits, postIfChanged, hp]
  have h2 : moveAll s (f s) = f s := by
    have hr : ∀ st, permitRecord (f s) st = permitRecord s st := fun st => congrArg (fun x => x.2.2) (hp st)
    simp [moveAll, moveIfChanged, hm, hr]
  simp only [event, h1, h2]
  simp [postPermits, postIfChanged]

end Sys2Proof.Machine
end

