-- ==== Sys2Proof/Laws/Records.lean ====
section
/-! SUPPORT. The words of Safety.lean for records, orders and halts, tied once to the operations of the machine: what a
write of an open record does, what an order, a stop and a halt leave. -/

namespace Sys2Proof.Machine

open Sys2Proof

/-! ### Vectors and nested updates -/

theorem vset_vget {α : Type} {n : Nat} (v : Vector α n) (i : Fin n) : vset v i (vget v i) = v := by simp [vset, vget]

theorem vset_vset {α : Type} {n : Nat} (v : Vector α n) (i : Fin n) (x y : α) :
    vset (vset v i x) i y = vset v i y := by simp [vset]

theorem modStc_modStc (st : Station) (f g : Stc → Stc) (s : Block) :
    modStc st f (modStc st g s) = modStc st (fun c => f (g c)) s := by cases st <;> rfl

theorem modDms_modDms (st : Station) (f g : Dms → Dms) (s : Block) :
    modDms st f (modDms st g s) = modDms st (fun d => f (g d)) s := by cases st <;> rfl

theorem modZone_modZone (z : Fin 32) (f g : Zone → Zone) (s : Block) :
    modZone z f (modZone z g s) = modZone z (fun c => f (g c)) s := by
  unfold modZone; congr 1; simp only [vget_vset_self, vset_vset]

/-- Two updates that agree on the station's present values agree. -/
theorem modStc_congr (st : Station) (f g : Stc → Stc) (s : Block) (h : f (stcOf s st) = g (stcOf s st)) :
    modStc st f s = modStc st g s := by unfold modStc; unfold stcOf at h; rw [h]

theorem modDms_congr (st : Station) (f g : Dms → Dms) (s : Block) (h : f (dmsOf s st) = g (dmsOf s st)) :
    modDms st f s = modDms st g s := by unfold modDms; unfold dmsOf at h; rw [h]

theorem modZone_congr (z : Fin 32) (f g : Zone → Zone) (s : Block) (h : f (zoneOf s z) = g (zoneOf s z)) :
    modZone z f s = modZone z g s := by unfold modZone; unfold zoneOf at h; rw [h]

/-- A station in a cycle: its cycle context changed. -/
theorem modCycle_eq {s : Block} {st : Station} {cy : Cycle} (hc : (stcOf s st).cycle = some cy) (f : Cycle → Cycle) :
    modCycle st f s = modStc st (fun c => { c with cycle := some (f cy) }) s := by
  unfold modCycle; apply modStc_congr; rw [hc]; rfl

/-! ### What reads the map alone -/

theorem heldOf_congr {s t : Block} (h : s.tab = t.tab) (x : Target) : heldOf s x = heldOf t x := by
  unfold heldOf entryFor; rw [h]

theorem isFresh_congr {s t : Block} (h : s.tab = t.tab) (x : Target) : isFresh s x = isFresh t x := by
  unfold isFresh freshnessOf entryFor; rw [h]

theorem issueOk_congr {s t : Block} (h : s.tab = t.tab) (st : Station) : issueOk s st = issueOk t st := by
  unfold issueOk; rw [isFresh_congr h, isFresh_congr h]

/-! ### The open record -/

/-- A change of the record of a number is a write of its slot and of no other. -/
theorem modRecord_writes {s : Block} {i : Fin 48} {n : Nat} {r : Record} (h : openIn s i n r) (f : Record → Record) :
    modRecord n f s = writes i (f r) s := by
  obtain ⟨h1, h2, h3⟩ := h
  have e : vmap (writeSlot n f) s.hst.slots = vset s.hst.slots i (.held .opened (f r)) := by
    apply vget_ext
    intro k
    rw [vget_vmap, vget_vset]
    by_cases hk : i = k
    · subst hk
      simp [h1, writeSlot, h2]
    · have hn := h3 k (Ne.symm hk)
      rw [if_neg hk]
      unfold writeSlot
      split
      · rename_i x hx
        rw [hx] at hn
        exact if_neg hn
      · rfl
  simp only [modRecord, modHst, writes, e]

/-- A change of a station's open record. -/
theorem modOpenRecord_writes {s : Block} {st : Station} {i : Fin 48} {r : Record} {cy : Cycle}
    (hc : (stcOf s st).cycle = some cy) (h : openIn s i cy.record r) (f : Record → Record) :
    modOpenRecord st f s = writes i (f r) s := by
  simp only [modOpenRecord, hc]; exact modRecord_writes h f

/-- A flag set in a station's open record (R174). -/
theorem setFlag_writes {s : Block} {st : Station} {i : Fin 48} {r : Record} {cy : Cycle}
    (hc : (stcOf s st).cycle = some cy) (h : openIn s i cy.record r) (f : RecFlag) :
    setFlag st f s = writes i { r with flags := r.flags ||| (1#16 <<< recFlagNum f) } s := modOpenRecord_writes hc h _

theorem openIn_writes {s : Block} {i : Fin 48} {n : Nat} {r x : Record} (h : openIn s i n r)
    (hx : x.number = r.number) : openIn (writes i x s) i n x := by
  refine ⟨by simp [writes], hx.trans h.2.1, fun j hj => ?_⟩
  simpa [writes, vget_vset_ne _ _ (Ne.symm hj)] using h.2.2 j hj

theorem openIn_congr {s t : Block} {i : Fin 48} {n : Nat} {r : Record} (h : openIn s i n r)
    (e : t.hst.slots = s.hst.slots) : openIn t i n r := by unfold openIn; rw [e]; exact h

theorem writes_writes (i : Fin 48) (r x : Record) (s : Block) : writes i r (writes i x s) = writes i r s := by
  simp [writes, vset_vset]

theorem writes_self {s : Block} {i : Fin 48} {n : Nat} {r : Record} (h : openIn s i n r) : writes i r s = s := by
  unfold writes; rw [← h.1, vset_vget]

theorem modStc_writes (st : Station) (f : Stc → Stc) (i : Fin 48) (r : Record) (s : Block) :
    modStc st f (writes i r s) = writes i r (modStc st f s) := rfl

theorem modDms_writes (st : Station) (f : Dms → Dms) (i : Fin 48) (r : Record) (s : Block) :
    modDms st f (writes i r s) = writes i r (modDms st f s) := rfl

@[simp] theorem stcOf_writes (i : Fin 48) (r : Record) (st : Station) (s : Block) :
    stcOf (writes i r s) st = stcOf s st := rfl

@[simp] theorem dmsOf_writes (i : Fin 48) (r : Record) (st : Station) (s : Block) :
    dmsOf (writes i r s) st = dmsOf s st := rfl

/-! ### Orders, stops and halts (R148, R161) -/

theorem postStroke_stroked (st : Station) (o : StrokeOrder) (s : Block) : postStroke st o s = stroked st o s := by
  unfold postStroke postControl stroked outUp; simp only [decide_eq_true_eq]; split <;> rfl

theorem postMotion_ordered (st : Station) (o : StrokeOrder) (t : Nat) (s : Block) :
    postMotion st o t s = ordered st o t s := by
  unfold postMotion ordered; rw [postStroke_stroked]; rfl

theorem postStop_stopped (st : Station) (s : Block) : postStop st s = stopped st s := by
  unfold postStop stopped; rw [postStroke_stroked]; rfl

theorem modDms_stroked (st x : Station) (f : Dms → Dms) (o : StrokeOrder) (s : Block) :
    modDms st f (stroked x o s) = stroked x o (modDms st f s) := rfl

/-- A halt whose cause unites no stuck groups with the record's. -/
theorem halt_haltedAt (st : Station) (cause : HaltCause) (stuck : BitVec 8) (resume : Resume) (s : Block)
    (h : causeUnites cause = false) : halt st cause stuck resume s = haltedAt st cause stuck resume s := by
  have e : haltedDms cause stuck resume = fun d =>
      { d with
        state := .halted, cause := cause, stuck := stuck, resume := resume, dwellTimer := none
        scanFollows := d.scanFollows && decide (resume = .probe)
        probeGroup := if resume = .probe then d.probeGroup else none
        probePhase := if resume = .probe then d.probePhase else .none } := by
    funext d; unfold haltedDms; by_cases hr : resume = .probe <;> simp [hr]
  unfold halt haltedAt setState
  simp only [h, postStop_stopped, Bool.false_eq_true, if_false, e]

theorem currentStep_of_cycle {s : Block} {st : Station} {cy : Cycle} {n : Nat} {p : StepCopy}
    (hc : (stcOf s st).cycle = some cy) (hn : (dmsOf s st).stepPos = n + 1) (hp : cy.steps[n]? = some p) :
    currentStep s st = some p := by
  unfold currentStep stepsOf; rw [hn, hc]; exact hp

/-- A step issued with the working mask (R148, R149). -/
theorem issueStep_issued {s : Block} {st : Station} {p : StepCopy} (h : currentStep s st = some p) :
    issueStep st s = issued st p (dmsOf s st).mask s := by
  unfold issueStep issued
  rw [h]
  by_cases hi : issueOk s st = true
  · simp only [hi, if_true, postMotion_ordered]
    unfold takeRetract ordered
    simp only [modDms_stroked, modDms_modDms]
  · simp only [hi, Bool.false_eq_true, if_false]
    exact halt_haltedAt _ _ _ _ _ rfl

end Sys2Proof.Machine
end

