-- ==== Sys2Proof/Laws/Events.lean ====
section
/-! SUPPORT. What a request that is admitted comes to, when an event adds nothing to its effect, and what a move of targets
and a leave of OFF do, each said once. -/

namespace Sys2Proof.Machine

open Sys2Proof

/-! ### Requests that are admitted (R183) -/

theorem finish_admitted {r : Request} {s : State} {s1 : Block} (h : admitted r s.toBlock s1) (act : Block → Block) :
    finish (whenTaken r act) s = .next (s.closing (act s1)) := by simp [finish, whenTaken, h.1, State.closing]

theorem serve_admitted {r : Request} {s s1 : Block} (h : admitted r s s1) (q : Sender) (hq : q.src = r.src)
    (code : Nat) (cls : RequestClass) (owner : Block → Answer) :
    serve q code cls true owner s1 = answer q code (owner s1) := by
  simp [serve, judgeRequest, h.2.1, hq, h.2.2]

/-- An admitted station command ends with the answer of its owner (R60). -/
theorem station_admitted {q : Sender} {sb arg : Byte} {n : Nat} {s : State} {s1 : Block}
    (h : admitted (stationRequest q sb n arg) s.toBlock s1) (act : Station → Block → Answer) (st : Station)
    (hs : stationOf sb.toNat = some st) :
    finish (whenTaken (stationRequest q sb n arg) (serveStation q sb act)) s =
      .next (s.closing (answer q codeStation (act st s1))) := by
  rw [finish_admitted h]
  simp only [serveStation]
  rw [serve_admitted h q rfl]
  simp [forStation, hs]

/-! ### What depends on the tables and one station -/

theorem zonesOf_congr {s t : Block} (st : Station) (h : s.tab = t.tab) : zonesOf s st = zonesOf t st := by
  unfold zonesOf entryOf; rw [h]

theorem mem_zonesOf (s : Block) (st : Station) (z : Fin 32) :
    z ∈ zonesOf s st ↔ (entryOf s z).enabled = true ∧ (entryOf s z).station = st := by simp [zonesOf, allZones]

theorem zonesOf_nodup (s : Block) (st : Station) : (zonesOf s st).Nodup := by
  unfold zonesOf; exact List.Nodup.filter _ (List.nodup_finRange 32)

theorem allInBand_congr {s t : Block} (st : Station) (h : s.tab = t.tab)
    (hb : (stcOf s st).inBand = (stcOf t st).inBand) : allInBand s st = allInBand t st := by
  simp only [allInBand, zonesOf_congr st h, hb]

/-- A station's permits follow from its permit bits and its cycle. -/
theorem permitOf_congr (s t : Block) (st : Station) (hc : (stcOf s st).closeOk = (stcOf t st).closeOk)
    (ho : (stcOf s st).openOk = (stcOf t st).openOk) (hy : (stcOf s st).cycle = (stcOf t st).cycle) :
    permitOf s st = permitOf t st := by simp [permitOf, permitRecord, *]

/-- A zone's target follows from the tables and its station's state, cycle and bound recipe (R90). -/
theorem zoneTarget_congr (s t : Block) (z : Fin 32) (ht : s.tab = t.tab)
    (hs : (stcOf s (entryOf s z).station).state = (stcOf t (entryOf s z).station).state)
    (hc : (stcOf s (entryOf s z).station).cycle = (stcOf t (entryOf s z).station).cycle)
    (hb : (stcOf s (entryOf s z).station).bound = (stcOf t (entryOf s z).station).bound) :
    zoneTarget s z = zoneTarget t z := by
  have he : entryOf s z = entryOf t z := by simp [entryOf, ht]
  simp only [zoneTarget, stateOf, recipeFor]
  rw [← he, hs, hc, hb, ht]

@[simp] theorem zoneOf_modStc (st : Station) (f : Stc → Stc) (z : Fin 32) (s : Block) :
    zoneOf (modStc st f s) z = zoneOf s z := rfl

@[simp] theorem stcOf_modZone (z : Fin 32) (f : Zone → Zone) (st : Station) (s : Block) :
    stcOf (modZone z f s) st = stcOf s st := rfl

/-! ### Events that add nothing (R84, R106) -/

theorem postPermits_self (s : Block) : postPermits s s = s := by simp [postPermits, postIfChanged]

/-- With every in-band zone judged at its present target no target moves. -/
theorem moveTargets_targetsHeld (s : Block) (st : Station) (h : targetsHeld s st) : moveTargets st s = s := by
  have fold : ∀ l : List (Fin 32), (∀ z ∈ l, z ∈ zonesOf s st) →
      l.foldl (fun s z => if (zoneOf s z).inBand && decide (zoneTarget s z ≠ (zoneOf s z).lastTarget) then
        setBand z false s else s) s = s := by
    intro l
    induction l with
    | nil => intro _; rfl
    | cons a l ih =>
      intro hl
      rw [List.foldl_cons, if_neg]
      · exact ih fun z hz => hl z (by simp [hz])
      · by_cases hb : (zoneOf s a).inBand = true
        · simp [h a (hl a (by simp)) hb]
        · simp [hb]
  exact fold _ fun _ h => h

/-- An effect on one station that keeps its permits and leaves no target of it to move is all that its event does. -/
theorem event_of_targetsHeld (f : Block → Block) (s : Block) (st : Station)
    (ho : stcOf (f s) (otherStation st) = stcOf s (otherStation st))
    (hp : permitOf (f s) st = permitOf s st) (hb : targetsHeld (f s) st) : event f s = f s := by
  have other : ∀ x, x ≠ st → stcOf (f s) x = stcOf s x := by
    intro x hx; cases st <;> cases x <;> first | exact ho | exact absurd rfl hx
  have permits : ∀ x, permitOf (f s) x = permitOf s x := by
    intro x
    by_cases hx : x = st
    · exact hx ▸ hp
    · apply permitOf_congr <;> rw [other x hx]
  have moves : ∀ x, moveIfChanged s x (f s) = f s := by
    intro x
    unfold moveIfChanged
    split
    · rfl
    · rename_i hn
      by_cases hx : x = st
      · exact moveTargets_targetsHeld _ _ (hx ▸ hb)
      · exact absurd (by simp [stateOf, permitRecord, other x hx]) hn
  have posts : postPermits s (f s) = f s := by simp [postPermits, postIfChanged, permits]
  simp only [event, posts, moveAll, moves, postPermits_self]

/-- An effect that touches no station is all that its event does. -/
theorem event_of_stc (f : Block → Block) (s : Block) (h : (f s).stc = s.stc) : event f s = f s := by
  apply event_eq
  · intro st; apply permitOf_congr <;> simp [stcOf, h]
  · intro st; simp [stateOf, stcOf, h]

/-! ### Leaving OFF (R89) -/

/-- Leaving OFF changes the zones alone. -/
theorem leaveOff_spec (z : Fin 32) (s : Block) :
    leaveOff z s = { s with zrg := { s.zrg with zones := (leaveOff z s).zrg.zones } } := by unfold leaveOff; split <;> rfl

/-- Each of some zones leaves OFF, where it is in OFF; no other zone changes. -/
theorem leaveOff_foldl (l : List (Fin 32)) (hl : l.Nodup) (s : Block) :
    let b := l.foldl (fun s z => leaveOff z s) s
    b = { s with zrg := { s.zrg with zones := b.zrg.zones } } ∧
      ∀ z, zoneOf b z = if z ∈ l ∧ (zoneOf s z).state = .off then
        { zoneOf s z with state := .regulating, iq := 0, r := 0, blindHold := none, wsp := initialWsp s z }
      else zoneOf s z := by
  induction l generalizing s with
  | nil => simp
  | cons a l ih =>
    have hn := (List.nodup_cons.mp hl).1
    obtain ⟨i1, i2⟩ := ih (List.nodup_cons.mp hl).2 (leaveOff a s)
    have ez := leaveOff_spec a s
    have ht : (leaveOff a s).tab = s.tab := by rw [ez]
    have hz : ∀ z, zoneOf (leaveOff a s) z = if z = a ∧ (zoneOf s z).state = .off then
        { zoneOf s z with state := .regulating, iq := 0, r := 0, blindHold := none, wsp := initialWsp s z }
      else zoneOf s z := by
      intro z
      unfold leaveOff
      by_cases h2 : z = a
      · subst h2; split <;> simp [*]
      · split <;> simp [*, zoneOf_modZone, Ne.symm h2]
    have hw : ∀ z, initialWsp (leaveOff a s) z = initialWsp s z := by
      intro z
      have hsl : (zoneOf (leaveOff a s) z).slot = (zoneOf s z).slot := by rw [hz]; split <;> rfl
      unfold initialWsp slotFresh slotHeld isFresh freshnessOf heldOf entryFor
      rw [ht, hsl]
    simp only [List.foldl_cons]
    refine ⟨by rw [i1, ez], fun z => ?_⟩
    rw [i2, hw, hz]
    by_cases h2 : z = a
    · subst h2; simp [hn]
    · simp [h2]

/-! ### Moves of targets (R106) -/

/-- An in-band zone of a station in neither READY nor CURING reports out of band. -/
theorem setBand_false (z : Fin 32) (s : Block) (st : Station) (hst : (entryOf s z).station = st)
    (h : (zoneOf s z).inBand = true) (hr : (stcOf s st).state ≠ .ready) (hc : (stcOf s st).state ≠ .curing) :
    setBand z false s =
      modStc st (fun c => { c with inBand := vset c.inBand z false, settle := none, heatReady := false, closeOk := false })
        (modZone z (fun c => { c with inBand := false }) s) := by
  unfold setBand
  simp only [h, Bool.true_eq_false, if_false, hst]
  unfold zoneReport clearHeat readyToPreheat judgeGate
  simp only [Bool.false_eq_true, if_false, stateOf, modStc_modStc, stcOf_modStc_self, stcOf_modZone, hr, hc]

/-- One in-band zone that reports, as a move of targets does. -/
def reportMoved (s : Block) (z : Fin 32) : Block :=
  if (zoneOf s z).inBand && decide (zoneTarget s z ≠ (zoneOf s z).lastTarget) then setBand z false s else s

/-- The zones of a station, in neither READY nor CURING, that report at a move of targets: exactly those in band and judged
at another target. Their reports stop the settle timer and clear heat-ready and CLOSE_OK. -/
theorem reportMoved_foldl (l : List (Fin 32)) (hl : l.Nodup) (st : Station) (s : Block)
    (hst : ∀ z ∈ l, (entryOf s z).station = st) (hr : (stcOf s st).state ≠ .ready)
    (hc : (stcOf s st).state ≠ .curing) :
    let out (z : Fin 32) : Bool := (zoneOf s z).inBand && decide (zoneTarget s z ≠ (zoneOf s z).lastTarget)
    let b := l.foldl reportMoved s
    stcOf b st = { stcOf s st with
      inBand := (stcOf b st).inBand
      settle := if l.any out then none else (stcOf s st).settle
      heatReady := if l.any out then false else (stcOf s st).heatReady
      closeOk := if l.any out then false else (stcOf s st).closeOk } ∧
    (∀ z, vget (stcOf b st).inBand z = if z ∈ l ∧ out z = true then false else vget (stcOf s st).inBand z) ∧
    (∀ z, zoneOf b z = { zoneOf s z with inBand := if z ∈ l ∧ out z = true then false else (zoneOf s z).inBand }) ∧
    stcOf b (otherStation st) = stcOf s (otherStation st) ∧
    b = { s with stc := b.stc, zrg := { s.zrg with zones := b.zrg.zones } } := by
  induction l generalizing s with
  | nil => simp
  | cons a l ih =>
    intro out b
    have hn := (List.nodup_cons.mp hl).1
    have hla := (List.nodup_cons.mp hl).2
    have eb : b = l.foldl reportMoved (reportMoved s a) := rfl
    by_cases ha : out a = true
    · have hb : (zoneOf s a).inBand = true := by simp only [out, Bool.and_eq_true] at ha; exact ha.1
      have es : reportMoved s a = modStc st (fun c =>
          { c with inBand := vset c.inBand a false, settle := none, heatReady := false, closeOk := false })
          (modZone a (fun c => { c with inBand := false }) s) :=
        (if_pos ha).trans (setBand_false a s st (hst a (by simp)) hb hr hc)
      generalize reportMoved s a = x at es eb
      have hx : stcOf x st = { stcOf s st with
          inBand := vset (stcOf s st).inBand a false, settle := none, heatReady := false, closeOk := false } := by
        rw [es]; simp
      have ht : x.tab = s.tab := by rw [es]; rfl
      have ho : stcOf x (otherStation st) = stcOf s (otherStation st) := by rw [es]; simp
      have hz : ∀ z, zoneOf x z = if z = a then { zoneOf s z with inBand := false } else zoneOf s z := by
        intro z
        rw [es, zoneOf_modStc, zoneOf_modZone]
        by_cases h : a = z
        · subst h; simp
        · simp [h, Ne.symm h]
      have hg : ∀ z, zoneTarget x z = zoneTarget s z := by
        intro z
        by_cases h : (entryOf x z).station = st
        · apply zoneTarget_congr _ _ _ ht <;> rw [h, hx]
        · have h : (entryOf x z).station = otherStation st := by
            generalize (entryOf x z).station = y at h
            cases y <;> cases st <;> first | rfl | exact absurd rfl h
          apply zoneTarget_congr _ _ _ ht <;> rw [h, ho]
      have hout : ∀ z ∈ l,
          ((zoneOf x z).inBand && decide (zoneTarget x z ≠ (zoneOf x z).lastTarget)) = out z := by
        intro z h
        have : z ≠ a := fun e => hn (e ▸ h)
        rw [hz z, hg z]; simp [this, out]
      obtain ⟨i1, i2, i3, i4, i5⟩ := ih hla x (by intro z h; rw [es]; exact hst z (by simp [h]))
        (by rw [hx]; exact hr) (by rw [hx]; exact hc)
      rw [← eb] at i1 i2 i3 i4 i5
      refine ⟨?_, fun z => ?_, fun z => ?_, i4.trans ho, ?_⟩
      · refine i1.trans ?_; rw [hx]; simp [ha]
      · rw [i2 z, hx]
        by_cases h : z = a
        · subst h; simp [hn, ha]
        · by_cases hzl : z ∈ l
          · simp only [hzl, true_and, hout z hzl, List.mem_cons, or_true, vget_vset_ne _ _ (Ne.symm h)]
          · simp [hzl, h, vget_vset_ne _ _ (Ne.symm h)]
      · rw [i3 z]
        by_cases h : z = a
        · subst h; rw [hz z]; simp [hn, ha]
        · by_cases hzl : z ∈ l
          · simp only [hzl, true_and, List.mem_cons, or_true, hz z, h, if_false, hg, out]
          · simp [hzl, h, hz z]
      · rw [i5, es]; rfl
    · have es : reportMoved s a = s := if_neg ha
      have ha' : out a = false := by simpa using ha
      rw [es] at eb
      obtain ⟨i1, i2, i3, i4, i5⟩ := ih hla s (fun z h => hst z (by simp [h])) hr hc
      rw [← eb] at i1 i2 i3 i4 i5
      refine ⟨?_, fun z => ?_, fun z => ?_, i4, i5⟩
      · refine i1.trans ?_; simp only [List.any_cons, ha', Bool.false_or]; rfl
      · rw [i2 z]
        by_cases h : z = a
        · subst h; simp [hn, ha']
        · simp [h, out]
      · rw [i3 z]
        by_cases h : z = a
        · subst h; simp [hn, ha']
        · simp [h, out]

theorem moveTargets_foldl (st : Station) (s : Block) : moveTargets st s = (zonesOf s st).foldl reportMoved s := rfl

end Sys2Proof.Machine
end

