-- ==== Sys2Proof/Laws/Image.lean ====
section
/-! SUPPORT. The sizes of the stored tables and of the configuration image (R190), and that an image the part makes passes
the checks it makes of one. -/

namespace Sys2Proof.Machine

open Sys2Proof

theorem leBytes_length (n x : Nat) : (leBytes n x).length = n := by
  induction n generalizing x with
  | zero => rfl
  | succ n ih => simp [leBytes, ih]

/-- Entries of one size, one after another. -/
theorem flatMap_length {α : Type} (f : α → List Byte) (n : Nat) (h : ∀ x, (f x).length = n) (l : List α) :
    (l.flatMap f).length = l.length * n := by
  induction l with
  | nil => simp
  | cons a l ih => simp [h, ih, Nat.add_mul, Nat.add_comm]

theorem mapConfigBytes_length (c : Option MapConfig) : (mapConfigBytes c).length = 9 := by
  cases c <;> simp [mapConfigBytes, leBytes_length]

theorem zoneEntryBytes_length (e : ZoneEntry) : (zoneEntryBytes e).length = 33 := by
  unfold zoneEntryBytes leInt
  repeat rw [List.length_append, leBytes_length]
  rw [leBytes_length]

theorem recipeBytes_length (e : Recipe) : (recipeBytes e).length = 36 := by
  unfold recipeBytes
  repeat rw [List.length_append, leBytes_length]
  rw [leBytes_length]

theorem stepEntryBytes_length (e : StepEntry) : (stepEntryBytes e).length = 12 := rfl

/-- The bytes of an image between its signature and its frame check. -/
theorem imageBody_length (t : Tables) (m : Nat) : (tablesBytes t ++ leBytes 3 m).length = 3310 := by
  unfold tablesBytes
  simp only [List.length_append, flatMap_length zoneEntryBytes 33 zoneEntryBytes_length,
    flatMap_length recipeBytes 36 recipeBytes_length, flatMap_length stepEntryBytes 12 stepEntryBytes_length,
    flatMap_length (fun e : MapEntry => mapConfigBytes e.config) 9 (fun e => mapConfigBytes_length _),
    Vector.length_toList, leBytes_length, stationEntryBytes, lineBytes, leInt]

theorem leNat_leBytes_two (x : Nat) (h : x < 65536) : leNat (leBytes 2 x) = x := by
  simp [leBytes, leNat]; omega

/-- A signature, a body of 3310 bytes and the body's frame check are an image that passes (R190). -/
theorem imageValid_of_body (b : List Byte) (h : b.length = 3310) :
    imageValid (leBytes 2 Config.imageSignature ++ b ++ leBytes 2 (frameCheck b).toNat) = true := by
  have h1 : (leBytes 2 Config.imageSignature).length = 2 := leBytes_length _ _
  have h3 : (leBytes 2 (frameCheck b).toNat).length = 2 := leBytes_length _ _
  have hs : leNat (leBytes 2 Config.imageSignature) = Config.imageSignature := leNat_leBytes_two _ (by decide)
  have hk : leNat (leBytes 2 (frameCheck b).toNat) = (frameCheck b).toNat := leNat_leBytes_two _ (frameCheck b).isLt
  unfold imageValid
  generalize leBytes 2 Config.imageSignature = a at h1 hs ⊢
  generalize hc : leBytes 2 (frameCheck b).toNat = c at h3 hk ⊢
  have e1 : (a ++ b ++ c).length = 3314 := by simp [h1, h, h3]
  have e2 : ((a ++ b ++ c).drop 2).take 3310 = b := by
    rw [List.append_assoc, List.drop_left' h1, List.take_left' h]
  have e3 : field (a ++ b ++ c) 0 2 = leNat a := by
    unfold field; rw [List.drop_zero, List.append_assoc, List.take_left' h1]
  have e4 : field (a ++ b ++ c) 3312 2 = leNat c := by
    unfold field; rw [List.drop_left' (by simp [h1, h]), ← h3, List.take_length]
  have en : Config.imageBytes = 3314 := rfl
  simp only [en, e1, e2, e3, e4, hs, hk, Nat.reduceSub, decide_true, Bool.and_self]

/-- The image of any tables and mask set passes the checks of R190. -/
theorem imageValid_imageOf (t : Tables) (m : BitVec 23) : imageValid (imageOf t m) = true :=
  imageValid_of_body _ (imageBody_length t m.toNat)

end Sys2Proof.Machine
end

