-- ==== Sys2Proof/Laws/Scale.lean ====
section
/-! SUPPORT. The words of Safety.lean for the weighing, tied once to the operations of the machine: the evaluation in LOADING
and the beginning of an attempt. -/

namespace Sys2Proof.Machine

open Sys2Proof

/-- The filtered net weight follows from the window and the Line Settings (R126). -/
theorem filteredNet_congr {s t : Block} (h : s.tab.line = t.tab.line) (w : s.scu.window = t.scu.window) :
    filteredNet s = filteredNet t := by unfold filteredNet windowFull netsOf; rw [h, w]

/-- The stable dwell test (R138). -/
theorem dwellTest_eq (x : Block) : dwellTest x = { x with scu := { x.scu with
    dwell := if (x.scu.stable && decide ((x.tab.line.emptyLimit : Int) < filteredNet x) && !x.scu.overload) = true then
        (match x.scu.dwell with
        | some d => some d
        | none => some { elapsed := 0, length := (x.tab.line.dwellCode + 1) * 100 })
      else none } } := by
  unfold dwellTest dwellCondition
  split
  · cases hd : x.scu.dwell with
    | none => rfl
    | some d => rw [if_neg (by simp)]; simp only [← hd]
  · rfl

/-- The evaluation of a session in LOADING (R138). -/
theorem evalLoading_evaluated {u : Session} {x : Block} (h : x.scu.session = some u) : evalLoading x = evaluated u x := by
  unfold evalLoading nearTest evaluated
  rw [h]
  by_cases hn : (!u.nearSent && decide (nearThreshold u ≤ filteredNet x)) = true
  · have hn' := hn
    unfold nearThreshold at hn'
    simp only [hn, hn', if_true, Bool.or_true, dwellTest_eq, notify]
    rw [postWeigh_spec]
    simp only [modSession, modScu, h, Option.map_some]
    rfl
  · have hn' := hn
    unfold nearThreshold at hn'
    rw [Bool.not_eq_true] at hn hn'
    simp only [hn, hn', Bool.false_eq_true, if_false, Bool.or_false]
    exact (dwellTest_eq x).trans (h ▸ rfl)

/-- An evaluation does not ask what session the blocks hold. -/
theorem evaluated_session (u : Session) (v : Option Session) (x : Block) :
    evaluated u { x with scu := { x.scu with session := v } } = evaluated u x := by
  have hf := filteredNet_congr (s := { x with scu := { x.scu with session := v } }) (t := x) rfl rfl
  unfold evaluated postWeigh postControl outUp
  simp only [hf]
  repeat' split
  all_goals rfl

/-- An attempt that begins, in a session whose owner's record is OPEN (R137). -/
theorem enterLoading_attemptBegun {u : Session} {cy : Cycle} {j : Fin 48} {w : Record} {x : Block}
    (h : x.scu.session = some u) (hc : (stcOf x u.owner).cycle = some cy) (hw : openIn x j cy.record w) :
    enterLoading x = attemptBegun u j w x := by
  unfold enterLoading attemptBegun
  rw [h]
  simp only
  generalize hy : modScu _ (modSession _ x) = y
  have hs : y.scu.session = some { u with state := .loading, attempts := u.attempts + 1, nearSent := false } := by
    rw [← hy]; simp [modScu, modSession, h]
  rw [modOpenRecord_writes (s := y) (cy := cy) (i := j) (r := w) (by rw [← hy]; exact hc)
      (openIn_congr hw (by rw [← hy]; rfl)),
    evalLoading_evaluated (x := writes j _ y) hs, ← evaluated_session _ y.scu.session (writes j _ { x with scu := _ })]
  subst hy
  rfl

end Sys2Proof.Machine
end

