-- ==== Sys2Proof/Tests/Slice0.lean ====
section
/-! SUPPORT. Tests: one check of `wellFormed` with an ill-formed command for each, single steps with results worked out
from the spec's rules, and a witness for the hypotheses of each statement of Certificates/Slice0/Obligations.lean. -/

namespace Sys2Proof.Tests

open Sys2Proof Sys2Proof.Machine

set_option maxRecDepth 8000

/-! ### Small states -/

/-- The part after reset with its image READY. -/
def ready : Block := { State.reset.toBlock with mga := { State.reset.mga with image := .ready } }

def zone0 : ZoneEntry :=
  { defaultZoneEntry with
    enabled := true, driveNode := 5, ratedPower := 100, kp := 256, ki := 64, dutyCeiling := 1000
    slew := 1000, rampStep := 500, overtempLimit := 3000, blindCap := 300, blindHold := 2 }

def recipe0 : Recipe := { defaultRecipe with upper := 1800, target := 1000, maxAttempts := 2, settle := 3 }

def step0 : StepEntry := { defaultStep with used := true, copy := { defaultStep.copy with target := 500, ceiling := 90 } }

/-- One enabled zone of station A, one recipe, its chain of one step. -/
def tables : Tables :=
  { defaultTables with
    zones := vset defaultTables.zones 0 zone0, recipes := vset defaultTables.recipes 0 recipe0
    steps := vset defaultTables.steps 0 step0 }

/-- Zone 0 in a state, its regulation timer running. -/
def zoneIn (x : ZoneState) (b : Block) : Block :=
  modZone 0 (fun _ => { resetZone x zone0 with timer := some { elapsed := 0, length := 10 } }) b

/-- The tables above with zone 0 REGULATING. -/
def cell : Block := zoneIn .regulating { ready with tab := tables }

/-- Station A in a state, with recipe 0 bound. -/
def inState (x : StationState) (b : Block) : Block := modStc .a (fun c => { c with state := x, bound := some 0 }) b

def cyc : Cycle := newCycle 1 0 recipe0 [step0.copy]

def rec1 : Record := newRecord 1 .a 0 0 none

/-- Slot 0 holds a record. -/
def holding (h : Holding) (r : Record) (b : Block) : Block :=
  { b with hst := { b.hst with slots := vset b.hst.slots 0 (.held h r), order := [0], counter := some 2 } }

/-- Station A in a state of a cycle whose record 1 is OPEN in slot 0. -/
def inCycle (x : StationState) (c : Cycle) (b : Block) : Block :=
  modStc .a (fun k => { k with state := x, bound := some 0, cycle := some c }) (holding .opened rec1 b)

def outIs (l : Link) (b : Block) : Block := { b with rpu := { b.rpu with outPort := { b.rpu.outPort with link := l } } }

def inIs (l : Link) (b : Block) : Block := { b with rpu := { b.rpu with inPort := { b.rpu.inPort with link := l } } }

/-- Map entry `i` FRESH with a held value. -/
def freshAt (i : Fin 96) (t : Target) (v : Int) (b : Block) : Block :=
  modEntry i (fun _ =>
    { config := some { node := 9, channel := i.val, target := t, freshLimit := 1000
                       jumpLimit := if isZoneSensor t then 100 else 0 }
      freshness := .fresh, held := v, quality := 0, age := 0, jumps := 0 }) b

/-- Both ejector signals of station A FRESH. -/
def ejecting (b : Block) : Block :=
  freshAt 2 (.stationSignal .a .ejectForce) 0 (freshAt 1 (.stationSignal .a .ejectPos) 40 b)

/-- Station A's sequencer in a state on the first step, with both timers running. -/
def sequencing (x : SeqState) (b : Block) : Block :=
  modDms .a (fun d => { d with state := x, stepPos := 1, mask := 1
                               stepTimer := startTimer 100, dwellTimer := startTimer 50 }) b

/-- A session of station A. -/
def session0 (x : SessionState) : Session := { newSession .a recipe0 with state := x, attempts := 1 }

/-- The scale with a session, a reading and both timers. -/
def weighed (x : SessionState) (net : Int) (b : Block) : Block :=
  modScu (fun u => { u with session := some (session0 x), window := [{ raw := net, net := net }]
                            dwell := startTimer 100, loading := startTimer 5000 }) b

/-- Zone 0 in band, judged at a target. -/
def bandAt (t : Int) (b : Block) : Block :=
  modStc .a (fun c => { c with inBand := vset c.inBand 0 true })
    (modZone 0 (fun c => { c with inBand := true, lastTarget := t }) b)

/-- CLOSED and TONNAGE of station A FRESH. -/
def pressing (closed tonnage : Int) (b : Block) : Block :=
  freshAt 4 (.stationSignal .a .tonnage) tonnage (freshAt 3 (.stationSignal .a .closed) closed b)

/-- Station A in a state of record 1 in slot 0, station B in the same of record 2 in slot 1. -/
def bothIn (x : StationState) : Block :=
  let b := inCycle x cyc cell
  modStc .b (fun k => { k with state := x, bound := some 0, cycle := some { cyc with record := 2 } })
    { b with hst := { b.hst with
      slots := vset b.hst.slots 1 (.held .opened { rec1 with number := 2, station := .b }), order := [0, 1] } }

/-- Station A's sequencer under an order of its first step. -/
def ordering (b : Block) : Block :=
  modDms .a (fun d => { d with order := some { mask := 1, target := 500, ceiling := 90, speed := 0 } }) b

def st (b : Block) : State := { toBlock := b, pending := [] }

def q : Sender := { src := 7, tag := 1 }

/-- The state a command leaves. -/
def ran (c : Instr) (b : Block) : State := match exec c (st b) with
  | .next t => t
  | _ => st b

/-- The replies and other frames waiting in the info queue, by payload. -/
def infos (s : State) : List (List Byte) := s.rpu.infoQ.map (·.payload)

/-- A frame as it arrives. -/
def arriving (f : Frame) : RxFrame := { bytes := frameBytes f, cutShort := false }

/-- A frame from node 7 with 3 hops left. -/
def frameTo (dest kind : Byte) (payload : List Byte) : Frame :=
  { dest := dest, src := 7, kind := kind, hops := 3, payload := payload }

/-! ### Well-formedness: a command that each check refuses -/

theorem test_wf_frame : wellFormed (.frameReceived { bytes := List.replicate 129 0, cutShort := false }) = false := by
  decide
theorem test_wf_disturbance : wellFormed (.linkTrainingDisturbed .out .nonIdleSymbol) = false := by decide
theorem test_wf_short : wellFormed (.shortRequestDiscard 7 [1, 2]) = false := by decide
theorem test_wf_unknown : wellFormed (.unknownRequest q 1 []) = false := by decide
theorem test_wf_body : wellFormed (.readId q (List.replicate 119 0)) = false := by decide

/-! ### Requests written out from R24, R60, R130 and R184 -/

theorem test_decode_requests : ∀ r ∈
    [(([1, 0x01] : List Byte), Instr.readId q []), ([1, 0x04, 0, 0x02, 9], .wake q 0 9),
     ([1, 0x04, 0, 0x0B, 9], .unknownRequest q 4 [0, 0x0B, 9]), ([1, 0x05, 0x03, 255], .cancel q 255),
     ([1, 0x07, 0x01], .readCountersClear q), ([1, 0x12, 0x01], .restartForce q), ([1], .shortRequestDiscard 7 [1])],
    decodeRequest { src := 7, payload := r.1 } = r.2 := by decide

theorem test_table_word : decodeTableWord 16 0x0400 = none := by decide

/-! ### Frames -/

/-- The check of the nine digits "123456789" by the polynomial, start value and order of R6. -/
theorem test_frame_check : frameCheck [0x31, 0x32, 0x33, 0x34, 0x35, 0x36, 0x37, 0x38, 0x39] = 0x29B1#16 := by decide

theorem test_frame_forwarded :
    (ran (.frameReceived (arriving (frameTo 9 0x50 []))) (inIs .up (outIs .up
      { ready with rpu := { ready.rpu with onLine := some [] } }))).rpu.forwardQ =
      [{ dest := 9, src := 7, kind := 0x50, hops := 2, payload := [] }] := by decide
theorem test_request_arrives :
    (ran (.frameReceived (arriving (frameTo 63 0x40 [1, 1]))) (inIs .up ready)).mga.requests =
      [{ src := 7, payload := [1, 1] }] := by decide
theorem test_permit_frame : controlFrame (.permit .b 12 true false 258) =
    { dest := 12, kind := 0x28, payload := [1, 1, 2, 1, 0, 0] } := by decide
theorem test_weigh_frame :
    controlFrame (.weigh 3 { station := .a, notice := .rejected, attempt := 2, cause := .timeout, weight := -2 }) =
      { dest := 3, kind := 0x30, payload := [0, 4, 2, 3, 0xFE, 0xFF, 0xFF, 0xFF] } := by decide
theorem test_stop_order : controlFrame (.stroke .a 4 { mask := 0, target := 0, ceiling := 1, speed := 0 }) =
    { dest := 4, kind := 0x24, payload := [0, 0, 0, 0, 1, 0, 0] } := by decide

/-! ### Link -/

theorem test_link_up : (ran (.linkCleanTimeExpiry .inp) (inIs .training ready)).rpu.inPort.link = .up := by decide
theorem test_link_loss_flushes :
    (ran (.linkLoss .out false) (outIs .up { ready with rpu := { ready.rpu with
      onLine := some [1], forwardQ := [frameTo 1 1 []], infoQ := [{ dest := 1, kind := 1, payload := [] }] } })).rpu =
      { ready.rpu with
        counters := { zeroCounters with disconnect := 1 }, infoQ := [{ dest := 1, kind := 1, payload := [] }] } := by
  decide

/-! ### Requests -/

theorem test_read_id : infos (ran (.readId q []) ready) = [[1, 1, 0, 0xA7, 0x02, 0x20, 0x48, 3, 63]] := by decide
theorem test_bind_out_of_range : infos (ran (.bindRecipe q 0 16) cell) = [[1, 4, 4]] := by decide
theorem test_wake : ((stcOf (ran (.wake q 0 0) (inState .standby cell)).toBlock .a).state,
    infos (ran (.wake q 0 0) (inState .standby cell))) = (.preheat, [[1, 4, 0]]) := by decide
theorem test_wake_unbound : infos (ran (.wake q 1 0) cell) = [[1, 4, 6]] := by decide
theorem test_off_zone : (zoneOf (ran (.off q 0 0) (inState .ready cell)).toBlock 0).state = .off := by decide
theorem test_produce_no_base : (stcOf (ran (.produce q 0 0) (inState .ready cell)).toBlock .a).noCycle =
    .recordBaseUnset := by decide
theorem test_produce_opens :
    (stcOf (ran (.produce q 0 0) (inState .ready { cell with hst := { cell.hst with counter := some 1 } })).toBlock
      .a).state = .charging := by decide
theorem test_abort_curing :
    (stcOf (ran (.abortCycle q 0 0) (inCycle .curing cyc cell)).toBlock .a).state = .opening := by decide
theorem test_zone_recover : (zoneOf (ran (.zoneRecover q 0 0) (freshAt 0 (.zoneSensor 0 .zero) 2950
    (zoneIn .fault cell))).toBlock 0).wsp = 2950 := by decide
theorem test_zone_recover_hot : infos (ran (.zoneRecover q 0 0) (freshAt 0 (.zoneSensor 0 .zero) 2951
    (zoneIn .fault cell))) = [[1, 4, 6]] := by decide
theorem test_reset_homes : (dmsOf (ran (.demouldReset q 0 0) (ejecting (inCycle .held cyc cell))).toBlock .a).order =
    some { mask := 255, target := 0, ceiling := 90, speed := 0 } := by decide
theorem test_tare : (ran (.tare q 0) (modScu (fun u => { u with window := [{ raw := 5, net := 7 }] }) ready)).scu.tare =
    7 := by decide
theorem test_zero_two_percent : infos (ran (.zero q 0) (modScu (fun u =>
    { u with stable := true, window := [{ raw := 5, net := 10001 }] }) ready)) = [[1, 5, 6]] := by decide
theorem test_cancel_nothing : infos (ran (.cancel q 255) ready) = [[1, 5, 6]] := by decide
theorem test_set_mask_bit23 : infos (ran (.setMask q [0, 0, 0x80]) ready) = [[1, 0x0A, 5]] := by decide
theorem test_clear_keeps_present : infos (ran (.clearConditions q [2, 20, 13]) ready) = [[1, 9, 0, 1, 20]] := by decide
theorem test_set_time_bad : infos (ran (.setTime q [0, 0, 0, 0, 0xE8, 3]) ready) = [[1, 0x0D, 5]] := by decide
theorem test_collect_empty : infos (ran (.collect q [8]) ready) = [[1, 0x0F, 0, 0, 0, 0, 0, 0, 0, 0, 0, 0]] := by decide
theorem test_release : infos (ran (.release q [1, 0, 0, 0]) (holding .sent rec1 ready)) = [[1, 0x10, 0, 1]] := by decide
/-- R183: the master check comes before the step byte and the option of a write. -/
theorem test_refused_before_option :
    let other : Block := { ready with tab := { ready.tab with line := { ready.tab.line with master := 6 } } }
    infos (ran (.tableWrite q [3, 0, 2, 0]) other) = [[1, 2, 7, 0]] ∧
      infos (ran (.unknownRequest q 0x12 [2]) other) = [[1, 0x12, 7]] ∧
      infos (ran (.tableWrite q [3, 0, 2, 0]) ready) = [[1, 2, 3, 0]] ∧
      infos (ran (.unknownRequest q 0x12 [2]) ready) = [[1, 0x12, 3]] ∧
      infos (ran (.unknownRequest q 0x07 [2]) other) = [[1, 0x07, 3]] := by decide
theorem test_restart_records : infos (ran (.restart q) (holding .sent rec1 ready)) = [[1, 0x12, 6]] := by decide
theorem test_counters_clear : infos (ran (.readCountersClear q)
    { ready with rpu := { ready.rpu with counters := { zeroCounters with rxFrames := 258 } } }) =
      [[1, 7, 0, 0, 0, 0, 0, 0, 0, 0, 0, 0, 0, 0, 0, 0, 0, 2, 1, 0, 0]] := by decide
theorem test_station_write : (ran (.tableWrite q [3, 1, 1, 1, 6, 8, 100, 0, 0xF4, 1]) ready).tab.stations.b =
    { pressNode := 6, ejectorNode := 8, refresh := 100, tolerance := 500 } := by decide
theorem test_station_write_bad : infos (ran (.tableWrite q [3, 1, 1, 1, 6, 8, 99, 0, 0xF4, 1]) ready) =
    [[1, 2, 5, 0]] := by decide

/-! ### Timers -/

/-- R91, R95 and R96 by hand: WSP 0 steps by 500 toward 1800, the error against 100 is 400, the integral 64 × 400, the
duty (256 × 400 + 25600 + 128) / 256 = 500, granted within an allowance of 300. -/
theorem test_regulation :
    let t := ran (.regulationEvent 0) (freshAt 0 (.zoneSensor 0 .zero) 100 (inState .ready
      { cell with pwa := { cell.pwa with allowance := vset cell.pwa.allowance 0 300 } }))
    ((zoneOf t.toBlock 0).wsp, (zoneOf t.toBlock 0).iq, (zoneOf t.toBlock 0).r, (zoneOf t.toBlock 0).g) =
      (500, 25600, 500, 300) := by decide
/-- The zone of the worked cases of 5.6. -/
def zone56 : ZoneEntry := { zone0 with kp := 96, ki := 4, ff := 200, dutyCeiling := 900, slew := 50 }

/-- The four worked cases of 5.6: two regular events, the saturated one with the integral frozen, the one at zero. -/
theorem test_worked_duties :
    ([(40000, 38, 380), (40152, 200, 371), (230000, 900, 870), (200, -80, 200)].map fun (iq, e, prev) =>
      (nextIntegral zone56 iq e, nextDuty zone56 (nextIntegral zone56 iq e) e prev)) =
      [(40152, 371), (40952, 421), (230000, 900), (0, 170)] := by decide
/-- The factors of event 1 of the worked budget: 1024, 942 and 1024, of a capacity of 600 000. -/
theorem test_worked_factors : factorsOf { c0 := 186000, c1 := 450000, c2 := 0 } 600000 =
    { c0 := 1024, c1 := 942, c2 := 1024 } := by decide
/-- The worked conversion of 7.2. -/
theorem test_worked_weight : grossOf { defaultLine with zero := 250000, span := 1000 } 1450000 = 18311 := by decide
theorem test_blind_hold : (zoneOf (ran (.blindHoldExpiry 0) (modZone 0 (fun c =>
    { c with blindHold := startTimer 2000 }) (zoneIn .blind cell))).toBlock 0).cause = .sensorLost := by decide
/-- R111 to R113 by hand: a demand of 400 in a zone of 100 W under a cap of 30 000: factor 30000 × 1024 / 40000 = 768,
allowance 400 × 768 / 1024 = 300. -/
theorem test_budget :
    (ran .budgetPeriodExpiry (modZone 0 (fun c => { c with r := 400 }) (inState .preheat
      { cell with tab := { tables with line := { defaultLine with cap := 30 } }
                  pwa := { cell.pwa with timer := startTimer 1000 } }))).pwa.allowance[0] = 300 := by decide
theorem test_accept_at_lower_bound :
    (stcOf (ran .stableDwellExpiry (weighed .loading 1000 (inCycle .charging cyc cell))).toBlock .a).state =
      .pressLoad := by decide
theorem test_reject_below : ((ran .stableDwellExpiry (weighed .loading 999 (inCycle .charging cyc cell))).scu.session.map
    (·.state)) = some .rejected := by decide
theorem test_step_timeout : (dmsOf (ran (.stepTimerExpiry .a) (sequencing .stroking (inCycle .demoulding cyc
    cell))).toBlock .a).cause = .timeout := by decide
theorem test_dwell_to_homing : (dmsOf (ran (.dwellTimerExpiry .a) (sequencing .dwell (ejecting (inCycle .demoulding cyc
    cell)))).toBlock .a).state = .homing := by decide
theorem test_settle : (stcOf (ran (.settleTimerExpiry .a) (modStc .a (fun c => { c with settle := startTimer 3000 })
    (inState .preheat cell))).toBlock .a).state = .ready := by decide
/-- The cure accrual stands one short of its 100 ms with its completion due; a gate that closes before the completion is
taken leaves the accrual short (R75). -/
theorem test_accrual_stops_short :
    let c := tickCycle { cyc with accruing := true, accrued := 99 }
    let shut := deliverFault (.stationSignal .a .closed) (inCycle .curing c cell)
    c.accrued = 99 ∧ c.accrualUp = true ∧
      (stcOf shut .a).cycle.map (fun k => (k.accrued, k.accruing, k.accrualUp)) = some (99, false, false) := by decide
/-- A rise of OPENED before the completion is taken is an early open, its cure time short of the full 0.1 s (R79). -/
theorem test_early_open_falls_short :
    let r : Record := { rec1 with cure := some { accrued := 7, outOfBand := 0, upperMin := 0, upperMax := 0, lowerMin := 0
                                                 lowerMax := 0, peakTonnage := 0 } }
    let b := deliverReading (.stationSignal .a .opened) 1 .rising
      (holding .opened r (inCycle .curing (tickCycle { cyc with accruing := true, accrued := 99 }) cell))
    (vget b.hst.slots 0) = .held .opened { r with
      flags := 8, cure := r.cure.map fun p => { p with accrued := 0 }
      demould := some { completed := 0, skipped := 0, retries := 0, stalls := 0, stuckUnion := 0, peakForce := 0
                        duration := 0 } } := by decide
/-- With an allowance of 0 the start of an out-of-band interval is past it (R76). -/
theorem test_no_allowance :
    (vget (deliverFault (.stationSignal .a .closed) (pressing 1 0 (inCycle .curing cyc cell))).hst.slots 0) =
      .held .opened { rec1 with flags := 64 } := by decide
/-- Two entries of one SAMPLE frame with OUT idle: the order that the arrival of the first posts goes on the line before the
second entry is taken, whose stall posts the retract order (R11, R32). -/
theorem test_entries_in_turn :
    let two : Cycle := { cyc with steps := [step0.copy, step0.copy], recipe := { recipe0 with maxRetries := 1 } }
    let b := outIs .up (modDms .a (fun d => { d with retractPos := some 40 })
      (ordering (sequencing .stroking (ejecting (inCycle .demoulding two cell)))))
    let t := takeSample { frameTo 63 0x10 [2, 1, 0, 0xF4, 1, 0, 2, 0, 91, 0, 0] with src := 9 } b
    (t.rpu.onLine.map fun bs => (bs.drop 5).take 4) = some [0, 1, 0xF4, 1] ∧
      t.rpu.controlQ = [.stroke .a 0 { mask := 1, target := 40, ceiling := 90, speed := 0 }] := by decide
/-- A READY station in production takes the cycle-open test at a RELEASE that frees a slot (R68, R179). -/
theorem test_release_opens :
    (stcOf (ran (.release q [1, 0, 0, 0]) (modStc .a (fun c => { c with production := true })
      (inState .ready (holding .sent rec1 cell)))).toBlock .a).state = .charging := by decide

/-- R1: an UP port reports what it receives, and a frame that reaches its end symbol is received as valid symbols. -/
theorem test_reception_reported :
    let up := ran (.linkSignalPresent .inp false) (inIs .up ready)
    up.rpu.inPort.link = .up ∧ up.rpu.inPort.reception = .signal ∧
      (ran (.linkTrainingDisturbed .inp .noSignal) up.toBlock).rpu.inPort.reception = .noSignal ∧
      (ran (.frameReceived (arriving (frameTo 63 0x50 []))) up.toBlock).rpu.inPort.reception = .clean := by decide

/-! ### Witnesses: for each statement, states and operands that meet its hypotheses, clause by clause -/

/-- With an empty request queue a request has just arrived; a READY image and a master of 255 admit it. -/
theorem admitted_ready (r : Request) (b : Block) (h1 : b.mga.requests = []) (h2 : b.mga.image ≠ .loading)
    (h3 : b.tab.line.master = 255) : admitted r b b := by
  refine ⟨?_, h2, ?_⟩
  · simp [takeRequest, h1]
  · simp [masterAdmits, h3]

theorem witness_StepRunsFrontCommand :
    ({ st ready with pending := [.budgetPeriodExpiry] } : State).pending = .budgetPeriodExpiry :: [] := rfl

/-- A request is due; nothing is due after reset, with line time invalid, in the middle, at the end of a second, and at
the last value of all. -/
theorem witness_IdleStepIsOneMillisecond :
    let timed (x : Option Stamp) : Block :=
      { State.reset.toBlock with hst := { State.reset.hst with lineTime := x } }
    dueCommand { ready with mga := { ready.mga with requests := [{ src := 7, payload := [1, 1] }] } } =
      some (.readId q []) ∧ dueCommand (timed none) = none ∧ dueCommand (timed (some { sec := 5, ms := 998 })) = none ∧
      dueCommand (timed (some { sec := 4294967294, ms := 999 })) = none ∧
      dueCommand (timed (some { sec := 4294967295, ms := 999 })) = none ∧
      dueCommand { cell with scu := { cell.scu with dwell := some { elapsed := 5, length := 5 }
                                                    loading := some { elapsed := 5, length := 5 } } } =
        some .stableDwellExpiry ∧
      dueCommand { cell with rpu := { cell.rpu with
        outPort := { link := .training, reception := .clean, cleanTime := 2 } } } = some (.linkCleanTimeExpiry .out) ∧
      dueCommand (inCycle .curing { cyc with accruing := true, accrualUp := true } cell) = some (.cureAccrualComplete .a) :=
  by decide

theorem witness_RequestDecodeEncode :
    wellFormed (.wake q 1 0) = true ∧ requestOf (.wake q 1 0) = some { src := 7, payload := [1, 4, 1, 2, 0] } := by
  decide

theorem witness_RequestTakeFromFront :
    let r : Request := { src := 7, payload := [1, 1] }
    let b : Block := { ready with mga := { ready.mga with requests := [{ src := 8, payload := [] }] } }
    requestOf (.readId q []) = some r ∧ ready.mga.requests = [] ∧ b.mga.requests = { src := 8, payload := [] } :: [] ∧
      ({ src := 8, payload := [] } : Request) ≠ r ∧ takeRequest r b = none := by decide

/-- BUSY while LOADING; a table identifier of 6; a body of READ_ID that is not empty; a write from another master. -/
theorem witness_RequestJudgedInOrder :
    (judgedOf (.readId q [0])).isSome = true ∧ (judgedOf (.readId q [0])).any (fun j => !j.form) = true ∧
      namesNoTable (.readId q [0]) = false ∧ namesNoTable (.tableRead q [6, 0, 1, 1]) = true ∧
      namesNoTable (.tableRead q [5, 0, 1, 1]) = false ∧ (judgedOf (.wake q 0 0)).any (fun j => j.form) = true ∧
      (judgedOf (.wake q 0 0)).map (·.cls) = some .write ∧ State.reset.mga.image = .loading ∧
      ready.mga.image ≠ .loading ∧
      ({ ready with tab := { tables with line := { defaultLine with master := 6 } } } : Block).tab.line.master = 6 := by
  decide

theorem witness_ReplyJoinsOrIsDropped :
    (List.replicate 15 ({ dest := 1, kind := 1, payload := [] } : InfoFrame)).length < 16 ∧
      16 ≤ (List.replicate 16 ({ dest := 1, kind := 1, payload := [] } : InfoFrame)).length := by decide

theorem witness_ShortAndUnknownRequests :
    ([1] : List Byte).length < 2 ∧ (0 : Byte).toNat = 0 ∧ 10 < (11 : Byte).toNat ∧ 3 < (4 : Byte).toNat ∧
      (1 < (2 : Byte).toNat ∧ 0x12 < (0x13 : Byte).toNat) ∧
      (let other : Block := { ready with tab := { ready.tab with line := { ready.tab.line with master := 6 } } }
       takeRequest (mgmtRequest q 4 [0, 11, 0]) other = some other ∧ other.mga.image ≠ .loading ∧
         masterAdmits other q.src = false ∧
         decodeRequest (mgmtRequest q 4 [0, 11, 0]) = .unknownRequest q 4 [0, 11, 0] ∧
         decodeRequest (mgmtRequest q 5 [0, 0]) = .unknownRequest q 5 [0, 0] ∧
         decodeRequest (mgmtRequest q 0x12 [2]) = .unknownRequest q 0x12 [2]) ∧
      admitted (mgmtRequest q 4 [1, 11, 0]) ready ready ∧ admitted (mgmtRequest q 5 [4, 0]) ready ready ∧
      admitted (mgmtRequest q 0x12 [2]) ready ready ∧ admitted (mgmtRequest q 7 [2]) ready ready :=
  ⟨by decide, by decide, by decide, by decide, by decide, ⟨rfl, by decide⟩, admitted_ready _ _ rfl (by decide) rfl,
    admitted_ready _ _ rfl (by decide) rfl, admitted_ready _ _ rfl (by decide) rfl,
    admitted_ready _ _ rfl (by decide) rfl⟩

theorem witness_LinkTransitions : ∀ l ∈ [Link.down, .training, .up],
    (portOf (inIs l ready) .inp).link = l ∧ (portOf (outIs l ready) .out).link = l := by decide

theorem witness_LinkStatesKept : ∃ t, exec .budgetPeriodExpiry State.reset = .next t := ⟨_, rfl⟩

theorem witness_FrameEncodeDecode : (frameTo 9 0x50 (List.replicate 120 0)).payload.length ≤ 120 := by decide

/-- Frames for each check of R7: cut short, the part's own, no hops, of another kind, a request, one that passes on. -/
theorem witness_ReceiveChecks :
    let good (f : Frame) := wellFramed (arriving f) = true ∧ checkPasses (frameBytes f) = true
    ready.rpu.inPort.link ≠ .up ∧ (inIs .up ready).rpu.inPort.link = .up ∧ ready.rpu.ownAddress = 63 ∧
      wellFramed { bytes := frameBytes (frameTo 63 0x40 []), cutShort := true } = false ∧
      good { frameTo 63 0x40 [] with src := 63 } ∧ good { frameTo 63 0x40 [] with hops := 0 } ∧
      good (frameTo 63 0x50 []) ∧ good (frameTo 63 0x40 []) ∧ good (frameTo 255 0x28 []) ∧
      good (frameTo 62 0x10 [0]) ∧ ready.mga.requests.length < 4 ∧
      4 ≤ (List.replicate 4 ({ src := 1, payload := [] } : Request)).length ∧
      (outIs .up ready).rpu.outPort.link = .up ∧ ready.rpu.forwardQ.length < 4 := by decide

/-- An idle line with k = 3 and k = 4, each queue occupied or not, and a busy line. -/
theorem witness_TransmitAndArbiter :
    let b := (outIs .up ready).rpu
    let f := frameTo 1 1 []
    b.outPort.link = .up ∧ b.onLine = none ∧ ready.rpu.outPort.link ≠ .up ∧
      ({ b with forwardQ := [f], forwardCount := 3, infoQ := [{ dest := 1, kind := 1, payload := [] }] } : Rpu).forwardCount
        < 4 ∧
      ({ b with forwardQ := [f], forwardCount := 4, controlQ := [.drive 1 []] } : Rpu).controlQ = .drive 1 [] :: [] ∧
      4 ≤ ({ b with forwardQ := [f], forwardCount := 4 } : Rpu).forwardCount ∧
      ({ b with onLine := some [] } : Rpu).onLine ≠ none := by decide

theorem witness_DrivePosting :
    let d (n : Nat) : ControlFrame := .drive n [{ channel := 2, duty := 10 }]
    ([d 1] = [] ++ [.drive 1 ([] ++ [{ channel := 2, duty := 10 }] ++ [])] ++ []) ∧
      (∀ e ∈ [({ channel := 2, duty := 10 } : DriveEntry)], e.channel ≠ 3) ∧
      ([d 1, d 2, d 3, d 4, d 5].filterMap driveNodeOf).length < 6 ∧
      6 ≤ ([d 1, d 2, d 3, d 4, d 5, d 6].filterMap driveNodeOf).length ∧
      (2 ∉ [1, 3, 4, 5, 6, 7]) ∧ (∀ m ∈ [d 1].filterMap driveNodeOf, m ∈ [1, 3, 4, 5, 6, 7]) := by decide

theorem witness_PermitAndStrokeReplaceInPlace :
    let p : ControlFrame := .permit .a 1 false false 0
    let o : ControlFrame := .stroke .a 1 { mask := 0, target := 0, ceiling := 1, speed := 0 }
    (outIs .up ready).rpu.outPort.link = .up ∧ isPermitOf .a p = true ∧ isPermitOf .a o = false ∧
      isStrokeOf .a o = true ∧ isStrokeOf .a p = false := by decide

theorem witness_WeighPosting :
    let w : ControlFrame := .weigh 1 { station := .a, notice := .accepted, attempt := 1, cause := .none, weight := 0 }
    ([w].filter isWeigh).length < 2 ∧ [.drive 1 [], w, w] = [.drive 1 []] ++ [w] ++ [w] ∧ isWeigh w = true ∧
      isWeigh (.drive 1 []) = false ∧ ([w].filter isWeigh).length = 1 ∧ ([w, w].filter isWeigh).length ≤ 2 := by decide

theorem witness_PostsDiscardedWhileDown : ready.rpu.outPort.link ≠ .up ∧ (outIs .training ready).rpu.outPort.link ≠ .up :=
  by decide

theorem witness_EventFrameJoins :
    let c : Cdu := { ready.cdu with mask := 0 }
    c.gateOpen = true ∧ c.latched &&& ~~~c.mask ≠ 0 ∧ ready.rpu.infoQ.length < 16 ∧
      ready.cdu.latched &&& ~~~ready.cdu.mask = 0 ∧ ({ c with gateOpen := false } : Cdu).gateOpen = false := by decide

theorem witness_SampleFramesTaken :
    let f (d : Byte) := frameTo d 0x10 [1, 4, 0, 1, 0, 0]
    wellFramed (arriving (f 63)) = true ∧ checkPasses (frameBytes (f 63)) = true ∧
      wellFramed (arriving (f 255)) = true ∧ checkPasses (frameBytes (f 255)) = true ∧
      frameOf (frameBytes (f 63)) = f 63 ∧ frameOf (frameBytes (f 255)) = f 255 ∧
      field [0] 0 1 = 0 ∧ 16 < field [17] 0 1 ∧ ([1, 2] : List Byte).length ≠ 1 + 5 * field [1, 2] 0 1 := by decide

/-- A zone sensor held at 0 with jump limit 100: a value of 4500 is in range and far, 4501 is out of range. An event that
leaves one station's CLOSE_OK changed, and one that leaves both as they were, with no target to move. -/
theorem witness_SampleEntryJudged :
    let b := freshAt 0 (.zoneSensor 0 .zero) 0 cell
    let s := bandAt 1800 (inCycle .pressLoad cyc cell)
    let c := modStc .a (fun c => { c with closeOk := true }) s
    entryWithKey b 9 0 = some 0 ∧ entryWithKey b 9 1 = none ∧ (vget b.tab.map 0).freshness = .fresh ∧
      inRange (.zoneSensor 0 .zero) 4500 = true ∧ inRange (.zoneSensor 0 .zero) 4501 = false ∧
      (vget b.tab.map 0).jumps < 2 ∧ 100 < (4500 - (vget b.tab.map 0).held).natAbs ∧
      ¬ 100 < ((100 : Int) - (vget b.tab.map 0).held).natAbs ∧ (∀ st ∈ [Station.a, .b], targetsHeld c st) ∧
      (stcOf c .a).closeOk ≠ (stcOf s .a).closeOk ∧ stcOf c .b = stcOf s .b ∧ permitRecord c .b = permitRecord s .b := by
  unfold targetsHeld; decide

theorem witness_SampleEntryGoesStale :
    let b := freshAt 0 (.zoneSensor 0 .zero) 0 cell
    let c := freshAt 3 (.stationSignal .a .closed) 1 cell
    (vget b.tab.map 0).config.map (·.target) = some (.zoneSensor 0 .zero) ∧ (vget b.tab.map 0).freshness = .fresh ∧
      (vget c.tab.map 3).config.isSome = true ∧ (vget c.tab.map 3).freshness = .fresh ∧ (vget b.tab.map 1).config = none ∧
      (zoneOf b 0).state ≠ .disabled ∧ (zoneOf b 1).state = .disabled := by decide

theorem witness_ReadIdAnswer :
    takeRequest (mgmtRequest q 0x01 []) ready = some ready ∧ ready.mga.image ≠ .loading := ⟨rfl, by decide⟩

theorem witness_ReadCountersAnswer :
    ready.mga.image ≠ .loading ∧ takeRequest (mgmtRequest q 0x07 [0]) ready = some ready ∧
      takeRequest (mgmtRequest q 0x07 [1]) ready = some ready ∧ masterAdmits ready 7 = true :=
  ⟨by decide, rfl, rfl, by decide⟩

theorem witness_ConditionRequests :
    ready.mga.image ≠ .loading ∧ masterAdmits ready q.src = true ∧
      takeRequest (mgmtRequest q 0x09 [1, 22]) ready = some ready ∧ 22 < (23 : Byte).toNat ∧ (22 : Byte).toNat ≤ 22 ∧
      takeRequest (mgmtRequest q 0x0A [0, 0, 0x80]) ready = some ready ∧
      takeRequest (mgmtRequest q 0x0B [22]) ready = some ready :=
  ⟨by decide, by decide, rfl, by decide, by decide, rfl, rfl⟩

theorem witness_StatusAnswers :
    ready.mga.image ≠ .loading ∧ takeRequest (mgmtRequest q 0x06 [0, 0, 0]) ready = some ready ∧
      takeRequest (mgmtRequest q 0x06 [2, 25, 7]) ready = some ready ∧ 1 ≤ (7 : Byte).toNat ∧ (7 : Byte).toNat ≤ 7 ∧
      takeRequest (mgmtRequest q 0x0E []) ready = some ready :=
  ⟨by decide, rfl, rfl, by decide, by decide, rfl⟩

/-- Two stations read upward; the third index is outside the table. -/
theorem witness_TableReadAnswer :
    tableOf 3 = some .station ∧ stepByte 0x01 = some 1 ∧ stepByte 0xFF = some (-1) ∧ 3 * readSize .station ≤ 116 ∧
      (∀ k : Nat, k < 2 → readEntry ready .station (0 + (k : Int) * 1) =
        ([stationEntryBytes defaultStationEntry, stationEntryBytes defaultStationEntry] : List (List Byte))[k]?) ∧
      readEntry ready .station 2 = none ∧ takeRequest (mgmtRequest q 0x03 [3, 0, 1, 2]) ready = some ready :=
  ⟨by decide, by decide, by decide, by decide, by decide, by decide, rfl⟩

theorem witness_StationIndexRefused :
    admitted (stationRequest q 2 2 0) ready ready ∧ requestOf (.wake q 2 0) = some (stationRequest q 2 2 0) ∧
      1 < (2 : Byte).toNat := ⟨admitted_ready _ _ rfl (by decide) rfl, by decide⟩

/-- READY with its zone in band, judged at the bound recipe's target, and at another; the other states as they stand. -/
theorem witness_BindRecipe :
    let b x := inState x cell
    let ready (t : Int) := bandAt t (b .ready)
    admitted (stationRequest q 0 1 0) (ready 1800) (ready 1800) ∧ stationOf (0 : Byte).toNat = some .a ∧
      isCycleState (stcOf (b .held) .a).state = true ∧ isCycleState (stcOf (b .ready) .a).state = false ∧
      16 ≤ (16 : Byte).toNat ∧ (15 : Byte).toNat = (15 : Fin 16).val ∧
      chainOf (b .off) (vget (b .off).tab.recipes 0) ≠ none ∧
      chainOf Tests.ready (vget Tests.ready.tab.recipes 15) = none ∧
      (∀ t ∈ [(1800 : Int), 1799], (stcOf (ready t) .a).cycle = none ∧ (stcOf (ready t) .a).closeOk = false ∧
        (stcOf (ready t) .a).state = .ready ∧ (zoneOf (ready t) 0).inBand = true ∧ (0 : Fin 32) ∈ zonesOf (ready t) .a ∧
        allInBand (ready t) .a = true ∧ zoneTarget (ready t) 0 = 1800 ∧ (zoneOf (ready t) 0).lastTarget = t) :=
  ⟨admitted_ready _ _ rfl (by decide) rfl, by decide⟩

theorem witness_WakeCommand :
    let b x := inState x cell
    admitted (stationRequest q 0 2 0) (b .off) (b .off) ∧ (stcOf (b .standby) .a).bound = some 0 ∧
      (stcOf cell .a).bound = none ∧ zonesOf (b .off) .a ≠ [] ∧ noBand (b .off) .a ∧ noBand (b .standby) .a ∧
      (b .off).pwa.pressure = false ∧ ({ (b .off) with pwa := { cell.pwa with pressure := true } } : Block).pwa.pressure =
        true ∧
      (let held := inState .standby (bandAt 0 cell)
       ¬ noBand held .a ∧ (stcOf held .a).closeOk = false ∧ allInBand held .a = true ∧
         (zoneOf (ran (.wake q 0 0) held).toBlock 0).inBand = false ∧
         (stcOf (ran (.wake q 0 0) held).toBlock .a).settle = none ∧
         (stcOf (ran (.wake q 0 0) (inState .standby (bandAt 1800 cell))).toBlock .a).settle =
           some { elapsed := 0, length := 3000 }) :=
  ⟨admitted_ready _ _ rfl (by decide) rfl, by decide, by decide, by decide, by unfold noBand; decide⟩

/-- STANDBY from OFF, and from READY with an in-band zone last judged at the standby setpoint and at another target. -/
theorem witness_StandbyAndOff :
    let b x := inState x cell
    let hot (t : Int) := bandAt t (b .ready)
    admitted (stationRequest q 0 3 0) (hot 0) (hot 0) ∧ admitted (stationRequest q 0 4 0) (hot 0) (hot 0) ∧
      (∀ t ∈ [(0 : Int), 1800], (stcOf (hot t) .a).state = .ready ∧ (stcOf (hot t) .a).closeOk = false ∧
        (stcOf (hot t) .a).cycle = none ∧ (0 : Fin 32) ∈ zonesOf (hot t) .a ∧ (zoneOf (hot t) 0).inBand = true ∧
        (zoneOf (hot t) 0).lastTarget = t) ∧
      (stcOf (b .off) .a).state = .off ∧ (zoneOf (zoneIn .off (b .off)) 0).state = .off ∧
      (entryOf cell 0).standbySetpoint = 0 ∧ isCycleState (stcOf (b .curing) .a).state = true ∧
      ((hot 0).cdu.present &&& (1#23 <<< 2) = 0 ↔ ∀ z ∈ zonesOf (hot 0) .a, (zoneOf (hot 0) z).state ≠ .fault) ∧
      (∀ z ∈ zonesOf (hot 0) .a, (zoneOf (hot 0) z).state ≠ .disabled ∧ (zoneOf (hot 0) z).state ≠ .off) :=
  ⟨admitted_ready _ _ rfl (by decide) rfl, admitted_ready _ _ rfl (by decide) rfl, by decide⟩

/-- READY with no FREE slot under the counter, with the counter UNSET, with no recipe bound, and ready to open: while the
other station's session is in progress, and with none on a scale that is not stable, stable and loaded, stable and empty;
in production; a claim of B with no session; both stations READY. -/
theorem witness_ProduceAndStop :
    let free := bandAt 1800 (inState .ready { cell with hst := { cell.hst with counter := some 1 } })
    let b := modScu (fun u => { u with session := some { session0 .clearing with owner := .b } }) free
    let on (net : Int) := modScu (fun u => { u with stable := true, window := [{ raw := net, net := net }] }) free
    admitted (stationRequest q 0 5 0) b b ∧ admitted (stationRequest q 0 6 0) b b ∧
      (stcOf b .a).production = false ∧ availableSlot (holding .sent { rec1 with number := 2 } b).hst = none ∧
      availableSlot (inState .ready cell).hst = some 0 ∧ (inState .ready cell).hst.counter = none ∧
      availableSlot b.hst = some 0 ∧ b.hst.counter = some 1 ∧ (stcOf b .b).bound = none ∧
      b.scu.session ≠ none ∧
      (∀ x ∈ [b, free, on 1, on 0], chainOf x (vget x.tab.recipes 0) = some [step0.copy] ∧ (stcOf x .a).cycle = none ∧
        (stcOf x .a).state = .ready ∧ (zoneOf x 0).inBand = true ∧ targetsHeld x .a ∧ x.hst.counter = some 1 ∧
        availableSlot x.hst = some 0) ∧
      free.scu.session = none ∧ free.scu.claims = [] ∧ free.scu.stable = false ∧ (on 1).scu.stable = true ∧
      (on 1).scu.claims = [] ∧ ((on 1).tab.line.emptyLimit : Int) < filteredNet (on 1) ∧
      filteredNet (on 0) ≤ (on 0).tab.line.emptyLimit ∧
      (let made (x : Block) := modStc .a (fun c => { c with production := true }) x
       let claim := modScu (fun u => { u with claims := [.b] }) (bothIn .charging)
       (stcOf (made b) .a).production = true ∧ (stcOf (made b) .a).state = .ready ∧
         availableSlot (made b).hst = some 0 ∧ (made (inState .ready cell)).hst.counter = none ∧
         claim.scu.session = none ∧ claim.scu.claims = .b :: [] ∧ (stcOf claim .b).cycle = some { cyc with record := 2 } ∧
         openIn claim 1 2 { rec1 with number := 2, station := .b } ∧ stateOf (bothIn .ready) .a = .ready ∧
         stateOf (bothIn .ready) .b = .ready) :=
  ⟨admitted_ready _ _ rfl (by decide) rfl, admitted_ready _ _ rfl (by decide) rfl,
    by unfold targetsHeld openIn; decide⟩

/-- CHARGING and PRESS_LOAD: no session, its own, its own with B's claim behind it; out of production, where the close opens
no other cycle, and in production with heat-ready. -/
theorem witness_AbortCycle :
    (∀ x ∈ [StationState.curing, .opening, .demoulding], ∀ d ∈ [SeqState.stroking, .paused],
      let b := bandAt 1800 (sequencing d (inCycle x cyc cell))
      admitted (stationRequest q 0 7 0) b b ∧ (stcOf b .a).state = x ∧ (stcOf b .a).cycle = some cyc ∧
        openIn b 0 cyc.record rec1 ∧ targetsHeld b .a ∧ (dmsOf b .a).abortPending = false ∧ (dmsOf b .a).state = d ∧
        (dmsOf (modDms .a (fun d => { d with abortPending := true }) b) .a).abortPending = true) ∧
    (∀ x ∈ [StationState.charging, .pressLoad],
      let b := bandAt 1800 (inCycle x cyc cell)
      let again := modStc .a (fun c => { c with production := true, heatReady := true }) b
      mayClose .a cyc 0 rec1 b ∧ staysClosed .a cyc b ∧ mayClose .a cyc 0 rec1 again ∧ b.scu.session = none ∧
        mayClose .a cyc 0 rec1 (weighed .loading 5 b) ∧ (weighed .loading 5 b).scu.session = some (session0 .loading) ∧
        (session0 .loading).owner = .a ∧ (weighed .loading 5 b).scu.claims = []) ∧
    (let b := modScu (fun u => { u with claims := [.b] }) (weighed .loading 5 (bothIn .charging))
     mayClose .a cyc 0 rec1 b ∧ b.scu.claims = .b :: [] ∧ (stcOf b .b).cycle = some { cyc with record := 2 } ∧
       openIn b 1 2 { rec1 with number := 2, station := .b } ∧ 2 ≠ cyc.record) := by
  refine ⟨?_, by unfold mayClose staysClosed boundHeld openIn targetsHeld; decide, by unfold mayClose openIn; decide⟩
  intro x hx d hd b
  refine ⟨admitted_ready _ _ rfl (by decide +revert) rfl, ?_⟩
  revert x d
  unfold openIn targetsHeld
  decide

/-- A zone in FAULT with its selected slot FRESH at the limit less 50 and one above it, with neither, and with the other
slot alone FRESH. -/
theorem witness_ZoneRecover :
    let b := inState .ready (zoneIn .fault cell)
    let hot sl v := freshAt 0 (.zoneSensor 0 sl) v b
    admitted (stationRequest q 0 8 0) (hot .zero 2950) (hot .zero 2950) ∧ 32 ≤ (32 : Byte).toNat ∧
      (entryOf b 0).station = .a ∧ (zoneOf b 0).state = .fault ∧ (zoneOf (inState .ready cell) 0).state ≠ .fault ∧
      slotFresh b 0 .zero = false ∧ slotFresh b 0 .one = false ∧ slotFresh (hot .zero 2950) 0 .zero = true ∧
      slotHeld (hot .zero 2950) 0 .zero ≤ ((entryOf b 0).overtempLimit : Int) - 50 ∧
      ((entryOf b 0).overtempLimit : Int) - 50 < slotHeld (hot .zero 2951) 0 .zero ∧
      slotFresh (hot .one 2950) 0 .zero = false ∧ slotFresh (hot .one 2950) 0 .one = true ∧
      (stcOf b .a).state ≠ .curing ∧
      (let x v := freshAt 0 (.zoneSensor 0 .one) v (inCycle .curing cyc (zoneIn .fault cell))
       (stcOf (x 2950) .a).cycle = some cyc ∧ openIn (x 2950) 0 cyc.record rec1 ∧
         ∀ v ∈ [2950, 2951], openIn (ran (.zoneRecover q 0 0) (x v)).toBlock 0 cyc.record { rec1 with flags := 512 }) :=
  ⟨admitted_ready _ _ rfl (by decide) rfl, by unfold openIn; decide⟩

/-- HELD after a timeout in each of the three moves, with and without a FRESH position, and after a stall of group 0 of two,
of the only group, with the probe's group 1. -/
theorem witness_DemouldReleaseAndReset :
    let h := sequencing .halted (ejecting (inCycle .held cyc cell))
    let b (x : Resume) := modDms .a (fun d => { d with cause := .timeout, resume := x, probeGroup := some 1 }) h
    let c := modDms .a (fun d => { d with cause := .stall, mask := 3, stuck := 1 }) h
    let e := modDms .a (fun d => { d with cause := .stall, mask := 1, stuck := 1 }) h
    admitted (stationRequest q 0 9 0) h h ∧ admitted (stationRequest q 0 10 0) h h ∧
      (∀ x ∈ [b .step, b .homing, b .probe, c, e], (stcOf x .a).state = .held ∧ targetsHeld x .a ∧
        (stcOf x .a).cycle = some cyc ∧ issueOk x .a = true ∧ (dmsOf x .a).stepPos = 0 + 1 ∧ openIn x 0 cyc.record rec1) ∧
      issueOk (sequencing .halted (inCycle .held cyc cell)) .a = false ∧ cyc.steps[0]? = some step0.copy ∧
      cyc.steps.getLast? = some step0.copy ∧ (∀ x ∈ [Resume.step, .homing, .probe], (dmsOf (b x) .a).resume = x) ∧
      (dmsOf (b .probe) .a).probeGroup = some 1 ∧ (dmsOf c .a).mask &&& ~~~(dmsOf c .a).stuck ≠ 0 ∧
      (dmsOf e .a).mask &&& ~~~(dmsOf e .a).stuck = 0 :=
  ⟨admitted_ready _ _ rfl (by decide) rfl, admitted_ready _ _ rfl (by decide) rfl,
    by unfold targetsHeld openIn; decide⟩

theorem witness_TareAndZero :
    let w net := modScu (fun u => { u with stable := true, window := [{ raw := 5, net := net }] }) ready
    admitted (scaleRequest q 1 0) ready ready ∧ admitted (scaleRequest q 2 0) (w 10000) (w 10000) ∧
      (weighed .loading 5 ready).scu.session.map (·.state) = some .loading ∧ (w 1).scu.session = none ∧
      ready.scu.window.length < 2 ^ ready.tab.line.windowCode ∧
      2 ^ (w 1).tab.line.windowCode ≤ (w 1).scu.window.length ∧ ready.scu.stable = false ∧ (w 1).scu.stable = true ∧
      (w 10000).tab.line.capacity = 10000 * 50 :=
  ⟨admitted_ready _ _ rfl (by decide) rfl, admitted_ready _ _ rfl (by decide) rfl, by decide⟩

/-- A claim of A waiting; a session of A, with no claim and with B's claim behind it; both in cycles that can close, A's also
after B's has closed; a session of B alone, which the CANCEL of A does not name. -/
theorem witness_CancelCommand :
    let b := bandAt 1800 (bothIn .charging)
    let own (cs : List Station) := modScu (fun u => { u with session := some (session0 .loading), claims := cs }) b
    let waiting := modScu (fun u => { u with claims := [.a] }) b
    let other := modScu (fun u => { u with session := some { session0 .loading with owner := .b } }) b
    let cyc2 : Cycle := { cyc with record := 2 }
    let rec2 : Record := { rec1 with number := 2, station := .b }
    admitted (scaleRequest q 3 0) b b ∧ admitted (scaleRequest q 3 255) (own [.b]) (own [.b]) ∧ (2 : Byte) ≠ 0 ∧
      (2 : Byte) ≠ 1 ∧ (2 : Byte) ≠ 255 ∧ stationOf (0 : Byte).toNat = some .a ∧
      (∀ x ∈ [own [], own [.b], waiting], mayClose .a cyc 0 rec1 x ∧ staysClosed .a cyc x ∧
        mayClose .b cyc2 1 rec2 x) ∧
      mayClose .a cyc 0 rec1 (arbitrate (event (fun _ => cycleOpenTest .b (cycleClosed .b cyc2 1 (rec2.aborted false)
        { discarded .b (own [.b]) with scu := unclaimed .b (own [.b]).scu })) (own [.b]))) ∧
      waiting.scu.session = none ∧ .a ∈ waiting.scu.claims ∧ (own []).scu.claims = [] ∧
      (unclaimed .a (own [.b]).scu).claims = .b :: [] ∧ (stcOf b .b).cycle = some cyc2 ∧ openIn b 1 2 rec2 ∧
      (session0 .loading).owner = .a ∧ other.scu.session.map (·.owner) = some .b ∧ other.scu.claims = [] :=
  ⟨admitted_ready _ _ rfl (by decide) rfl, admitted_ready _ _ rfl (by decide) rfl, by decide, by decide, by decide,
    by decide, by unfold mayClose staysClosed boundHeld openIn targetsHeld; decide, by unfold mayClose openIn; decide,
    by unfold openIn; decide⟩

/-- A record that is not OPEN below the base, an OPEN one, one at the base; a READY station in production. -/
theorem witness_RecordBaseAndTime :
    let b := holding .sent rec1 ready
    let made := modStc .a (fun c => { c with production := true }) (inState .ready b)
    admitted (mgmtRequest q 0x0C [2, 0, 0, 0]) b b ∧ admitted (mgmtRequest q 0x0C [2, 0, 0, 0]) made made ∧
      admitted (mgmtRequest q 0x0D [0, 0, 0, 0, 0xE7, 3]) b b ∧
      (∃ i r, vget (holding .opened rec1 ready).hst.slots i = .held .opened r) ∧
      (∃ i h r, vget b.hst.slots i = .held h r ∧ 1 ≤ r.number) ∧
      (∀ x ∈ [b, made], (∀ i, isHolding .opened (vget x.hst.slots i) = false) ∧
        ∀ i, slotNumber (vget x.hst.slots i) < 2) ∧
      stateOf made .a = .ready ∧ (∀ x ∈ [Station.a, .b], (stcOf b x).state ≠ .ready) ∧
      (0xE7 : Byte).toNat + 256 * (3 : Byte).toNat = 999 :=
  ⟨admitted_ready _ _ rfl (by decide) rfl, admitted_ready _ _ rfl (by decide) rfl,
    admitted_ready _ _ rfl (by decide) rfl, ⟨0, rec1, by decide⟩, ⟨0, .sent, rec1, by decide⟩, by decide⟩

/-- Nothing CLOSED or SENT; a CLOSED record with room, and with the info queue at 12; a selection of one and of two. -/
theorem witness_CollectAndParts :
    let a := holding .closed rec1 ready
    let full := { a with rpu := { a.rpu with infoQ := List.replicate 12 { dest := 1, kind := 1, payload := [] } } }
    let c rest : Collection := { selection := 1 :: rest, requester := q, placed := 0, first := 0, last := 0 }
    let b rest := { a with hst := { a.hst with collection := some (c rest) } }
    admitted (mgmtRequest q 0x0F [8]) a a ∧ admitted (mgmtRequest q 0x0F [1]) full full ∧ 8 < (9 : Byte).toNat ∧
      (8 : Byte) ≠ 0 ∧ (8 : Byte).toNat ≤ 8 ∧ (b []).hst.collection ≠ none ∧ ready.hst.collection = none ∧
      ready.hst.order = [] ∧ a.hst.collection = none ∧ a.hst.order = [0] ∧
      isCollectable (vget a.hst.slots 0) = true ∧ 12 ≤ full.rpu.infoQ.length ∧ a.rpu.infoQ.length < 12 ∧
      a.cdu.latched &&& ~~~a.cdu.mask = 0 ∧ (b []).hst.collection = some (c []) ∧
      (b [2]).hst.collection = some (c [2]) ∧ vget (b []).hst.slots 0 = .held .closed rec1 ∧
      (∀ j, j ≠ 0 → slotNumber (vget (b []).hst.slots j) ≠ rec1.number) ∧ [2] ≠ ([] : List Nat) :=
  ⟨admitted_ready _ _ rfl (by decide) rfl, admitted_ready _ _ rfl (by decide) rfl, by decide⟩

/-- A record SENT; a collection whose selection the RELEASE empties, and one it does not; a READY station in production. -/
theorem witness_ReleaseRecords :
    let b := holding .sent rec1 ready
    let c (ns : List Nat) : Collection := { selection := ns, requester := q, placed := 0, first := 0, last := 0 }
    let collecting (ns : List Nat) : Block := { b with hst := { b.hst with collection := some (c ns) } }
    let made := modStc .a (fun c => { c with production := true }) (inState .ready b)
    (∀ x ∈ [b, collecting [1], collecting [1, 2], made], takeRequest (mgmtRequest q 0x10 [1, 0, 0, 0]) x = some x ∧
      x.mga.image ≠ .loading ∧ masterAdmits x 7 = true ∧ vget x.hst.slots 0 = .held .sent rec1) ∧
      rec1.number ≤ 1 ∧ (∀ x ∈ [Station.a, .b], (stcOf b x).state ≠ .ready) ∧ b.hst.collection = none ∧
      (c [1]).selection.filter (fun k => decide (k ∉ [1])) = [] ∧
      (c [1, 2]).selection.filter (fun k => decide (k ∉ [1])) ≠ [] ∧ stateOf made .a = .ready ∧
      stateOf made .b ≠ .ready ∧ (∀ i, released 0 (vget b.hst.slots i) = false) := by decide

/-- The tables after reset pass their checks. -/
theorem witness_StoreImage :
    let b := { ready with mga := { ready.mga with image := .storing } }
    admitted (mgmtRequest q 0x11 []) ready ready ∧ admitted (mgmtRequest q 0x11 []) b b ∧ ready.mga.image = .ready ∧
      b.mga.image = .storing ∧ tablesSound defaultTables :=
  ⟨admitted_ready _ _ rfl (by decide) rfl, admitted_ready _ _ rfl (by decide) rfl, by decide, by decide,
    by decide, by decide, by decide, by decide, by intro x; cases x <;> decide, by decide,
    by intro i c h; simp [defaultTables, neverEntry, vget] at h, by decide⟩

theorem witness_ResetCommands :
    let b := { ready with mga := { ready.mga with image := .storing } }
    admitted (mgmtRequest q 0x12 [0]) b b ∧ admitted (mgmtRequest q 0x12 [1]) ready ready ∧ b.mga.image = .storing ∧
      ready.mga.image ≠ .storing ∧ (∃ i h r, vget (holding .sent rec1 ready).hst.slots i = .held h r) ∧
      (∀ i, isFree (vget ready.hst.slots i) = true) :=
  ⟨admitted_ready _ _ rfl (by decide) rfl, admitted_ready _ _ rfl (by decide) rfl, by decide, by decide,
    ⟨0, .sent, rec1, by decide⟩, by decide⟩

/-- A memory of two bytes is no image; the image of the default tables is a valid one. -/
theorem witness_ImageLoad :
    State.reset.mga.image = .loading ∧ State.reset.pwa.pressure = false ∧ State.reset.mga.memory = .unsigned ∧
      imageValid [0x5A, 0xA5] = false ∧ ready.mga.image ≠ .loading ∧ imageValid (imageOf tables 5) = true ∧
      (let s : Block := { State.reset.toBlock with
        mga := { State.reset.mga with memory := .image (imageOf tables 5) } }
       s.mga.image = .loading ∧ s.mga.memory = .image (imageOf tables 5)) :=
  ⟨rfl, rfl, rfl, by decide, by decide, imageValid_imageOf _ _, rfl, rfl⟩

theorem witness_SettleAndRefreshTimers : ∀ x ∈ [StationState.preheat, .pressLoad, .held],
    let b := modStc .a (fun c => { c with settle := startTimer 3000, refresh := startTimer 1000 }) (inState x cell)
    (stcOf b .a).settle ≠ none ∧ (stcOf b .a).refresh ≠ none ∧ (stcOf b .a).state = x ∧
      (stcOf b .a).production = false ∧ (stcOf b .a).closeOk = false ∧ targetsHeld b .a ∧
      (stcOf (inState x cell) .a).settle = none ∧ (stcOf (inState x cell) .a).refresh = none := by
  unfold targetsHeld; decide

/-- CURING with its counts running and stopped; PRESS_LOAD with the gate short of and at its figures, without a session and
with its own ACCEPTED; OPENING; CHARGING. -/
theorem witness_CureExits :
    let met (b : Block) : Bool := isFresh b (.stationSignal .a .closed) && decide (heldOf b (.stationSignal .a .closed) = 1) &&
      (isFresh b (.stationSignal .a .tonnage) &&
        decide ((cyc.recipe.minTonnage : Int) ≤ heldOf b (.stationSignal .a .tonnage)))
    let at_ (x : StationState) (c : Cycle) := bandAt 1800 (inCycle x c cell)
    (∀ on ∈ [true, false],
      let c : Cycle := { cyc with accruing := on, elapsedRunning := on, outCounting := on }
      (stcOf (at_ .curing c) .a).cycle = some c ∧ (stcOf (at_ .curing c) .a).state = .curing ∧
        openIn (at_ .curing c) 0 c.record rec1 ∧ targetsHeld (at_ .curing c) .a) ∧
    (∀ b ∈ [at_ .pressLoad cyc, pressing 1 0 (at_ .pressLoad cyc), pressing 1 0 (weighed .accepted 5 (at_ .pressLoad cyc)),
        at_ .opening cyc, at_ .charging cyc],
      (stcOf b .a).cycle = some cyc ∧ openIn b 0 cyc.record rec1) ∧
    met (at_ .pressLoad cyc) = false ∧ met (pressing 0 0 (at_ .pressLoad cyc)) = false ∧
    met (pressing 1 0 (at_ .pressLoad cyc)) = true ∧ (at_ .pressLoad cyc).scu.session = none ∧
    (weighed .accepted 5 (at_ .pressLoad cyc)).scu.session = some (session0 .accepted) ∧
    (weighed .accepted 5 (at_ .pressLoad cyc)).scu.claims = [] ∧ (session0 .accepted).owner = .a ∧
    (let both := modScu (fun u => { u with claims := [.b] }) (pressing 1 0 (weighed .accepted 5 (bothIn .pressLoad)))
     (stcOf both .b).cycle = some { cyc with record := 2 } ∧
       openIn both 1 2 { rec1 with number := 2, station := .b } ∧ both.scu.claims = [.b] ∧
       (stcOf (deliverReading (.stationSignal .a .tonnage) 0 .none both) .a).state = .curing ∧
       (deliverReading (.stationSignal .a .tonnage) 0 .none both).scu.session.any (fun u => u.owner = .b) = true) ∧
    (stcOf (at_ .opening cyc) .a).state = .opening ∧ cyc.steps.head? = some step0.copy := by
  unfold openIn targetsHeld
  constructor <;> decide

/-- A READY station's zone in each state: PV at the limit, one above it, no sensor FRESH, the other sensor FRESH; a window
in its middle and at its end, with the other slot better by more than the margin, and by the margin alone. The judgement of
R105 stays and, with WSP one step from the target, changes. A report in each kind of state; CURING with a cure part. -/
theorem witness_RegulationEvent :
    let b x := inState .ready (zoneIn x cell)
    let hot v x := freshAt 0 (.zoneSensor 0 .zero) v (b x)
    let worn n := modZone 0 (fun c => { c with faults0 := n, windowPos := 15 })
      (freshAt 1 (.zoneSensor 0 .one) 0 (hot 0 .regulating))
    let part : CurePart := { accrued := 0, outOfBand := 0, upperMin := 0, upperMax := 0, lowerMin := 0, lowerMax := 0
                             peakTonnage := 0 }
    let w : Record := { rec1 with cure := some part }
    let cures := holding .opened w (freshAt 0 (.zoneSensor 0 .zero) 5 (inCycle .curing cyc cell))
    (zoneOf (modZone 0 (fun c => { c with timer := none }) cell) 0).timer = none ∧
      (∀ x ∈ [ZoneState.off, .regulating, .blind, .fault], (zoneOf (b x) 0).timer ≠ none ∧ (zoneOf (b x) 0).state = x ∧
        slotFresh (b x) 0 .zero = false ∧ slotFresh (b x) 0 .one = false ∧ slotFresh (hot 3000 x) 0 .zero = true ∧
        slotHeld (hot 3000 x) 0 .zero ≤ (entryOf cell 0).overtempLimit ∧
        ((entryOf cell 0).overtempLimit : Int) < slotHeld (hot 3001 x) 0 .zero) ∧
      slotFresh (freshAt 1 (.zoneSensor 0 .one) 0 (b .regulating)) 0 .zero = false ∧
      slotFresh (freshAt 1 (.zoneSensor 0 .one) 0 (b .regulating)) 0 .one = true ∧
      (zoneOf (hot 0 .off) 0).windowPos + 1 < (zoneOf (hot 0 .off) 0).windowLen ∧
      (zoneOf (worn 2) 0).windowLen = (zoneOf (worn 2) 0).windowPos + 1 ∧
      (zoneOf (worn 2) 0).faults1 + (zoneOf (worn 2) 0).windowMargin < (zoneOf (worn 2) 0).faults0 ∧
      (zoneOf (worn 1) 0).faults1 + (zoneOf (worn 1) 0).windowMargin = (zoneOf (worn 1) 0).faults0 ∧
      (entryOf cell 0).enabled = true ∧ zoneTarget (b .regulating) 0 = 1800 ∧ bandWidth (b .regulating) 0 = 1 ∧
      (ran (.regulationEvent 0) (modZone 0 (fun c => { c with wsp := 1300 })
        (hot 1799 .regulating))).zrg.zones[0].inBand = true ∧
      (ran (.regulationEvent 0) (hot 1799 .regulating)).zrg.zones[0].inBand = false ∧
      (∀ x ∈ [StationState.preheat, .ready, .curing], recipeFor (inState x cell) .a = some recipe0 ∧
        stateOf (inState x cell) .a = x) ∧
      stateOf cures .a = .curing ∧ slotFresh cures 0 (zoneOf cures 0).slot = true ∧ (stcOf cures .a).cycle = some cyc ∧
      openIn cures 0 cyc.record w ∧ w.cure = some part := by unfold openIn; decide

theorem witness_BlindHoldExpires : ∀ x ∈ [StationState.ready, .curing],
    let b := modZone 0 (fun c => { c with blindHold := startTimer 2000 }) (zoneIn .blind (inCycle x cyc cell))
    (zoneOf b 0).blindHold ≠ none ∧ (zoneOf b 0).state = .blind ∧ (zoneOf b 0).inBand = false ∧
      (entryOf b 0).enabled = true ∧ stateOf b .a = x ∧ (stcOf b .a).cycle = some cyc ∧ openIn b 0 cyc.record rec1 ∧
      (zoneOf cell 0).blindHold = none := by unfold openIn; decide

/-- A budget with its timer running, where the load fits the cap exactly and where it does not, with and without pressure; a
deferred wake of an OFF and of a STANDBY station; the pressure clears at 90 % of a cap of 45 and stays at 90 % of 44. -/
theorem witness_BudgetPeriod :
    let b (cap : Nat) (p : Bool) (x : StationState) := modStc .a (fun c => { c with deferredWake := true })
      (modZone 0 (fun c => { c with r := 400 }) (inState x
        { cell with tab := { tables with line := { defaultLine with cap := cap } }
                    pwa := { cell.pwa with timer := startTimer 1000, pressure := p } }))
    (∀ cap ∈ [30, 40], ∀ p ∈ [true, false], ∀ x ∈ [StationState.off, .standby, .preheat], (b cap p x).pwa.timer ≠ none ∧
      (stcOf (b cap p x) .a).deferredWake = true ∧ noBand (b cap p x) .a ∧ (stcOf (b cap p x) .a).cycle = none ∧
      (stcOf (b cap p x) .b).deferredWake = false ∧ (stcOf (b cap p x) .a).bound = some 0 ∧ zonesOf (b cap p x) .a ≠ []) ∧
    ready.pwa.timer = none ∧ zoneClass (b 40 true .preheat) 0 = some .heating ∧
    loadOf (b 40 true .preheat) .heating = 40000 ∧ loadOf (b 44 true .standby) .standby = 40000 ∧
    (ran .budgetPeriodExpiry (b 45 true .standby)).pwa.pressure = false ∧
    (stcOf (ran .budgetPeriodExpiry (b 45 true .standby)).toBlock .a).state = .preheat ∧
    (stcOf (ran .budgetPeriodExpiry (b 44 true .standby)).toBlock .a).state = .standby ∧
    (let held := bandAt 0 (b 45 true .standby)
     ¬ noBand held .a ∧ (stcOf held .a).closeOk = false ∧ (stcOf held .a).cycle = none ∧
       (zoneOf (ran .budgetPeriodExpiry held).toBlock 0).inBand = false) := by unfold noBand; decide

/-- The filtered net weight at both bounds of the tolerance and outside them, with attempts left and without; a session in
each state and none; the claim of B behind an ACCEPTED one. -/
theorem witness_ScaleTimers :
    let b (w : Int) (k : Nat) := modScu (fun u => { u with session := some { session0 .loading with attempts := k } })
      (weighed .loading w (inCycle .charging cyc cell))
    let two := modScu (fun u => { u with claims := [.b] }) (weighed .accepted 0 (bothIn .charging))
    (∀ w ∈ [(999 : Int), 1000, 1001], ∀ k ∈ [1, 2],
      (b w k).scu.dwell ≠ none ∧ (b w k).scu.loading ≠ none ∧
        (b w k).scu.session = some { session0 .loading with attempts := k } ∧ (stcOf (b w k) .a).cycle = some cyc ∧
        (stcOf (b w k) .a).state = .charging ∧ (stcOf (b w k) .a).production = false ∧ (b w k).scu.claims = [] ∧
        openIn (b w k) 0 cyc.record rec1 ∧ filteredNet (b w k) = w) ∧
    (session0 .loading).target = 1000 ∧ (session0 .loading).tolLow = 0 ∧ (session0 .loading).tolHigh = 0 ∧
    (session0 .loading).maxAttempts = 2 ∧ cyc.waitRunning = false ∧ ready.scu.dwell = none ∧ ready.scu.loading = none ∧
    ready.scu.session = none ∧
    (∀ x ∈ [SessionState.clearing, .loading, .settling, .accepted, .rejected],
      (weighed x 0 (inCycle .charging cyc cell)).scu.session = some (session0 x) ∧ (session0 x).state = x ∧
      (stcOf (weighed x 0 (inCycle .charging cyc cell)) (session0 x).owner).cycle = some cyc ∧
      openIn (weighed x 0 (inCycle .charging cyc cell)) 0 cyc.record rec1) ∧
    two.scu.claims = .b :: [] ∧ (stcOf two .b).cycle = some { cyc with record := 2 } ∧
    openIn two 1 2 { rec1 with number := 2, station := .b } := by unfold openIn; decide

/-- The states that move under an order and those that do not; an arrival at the target and one past the tolerance; a dwell
and a rest with a further step or group and after the last; forces at the limit and above it with retries left, none left and
the scan; PAUSED with each resume action. -/
theorem witness_SequencerTimers :
    let two : Cycle := { cyc with steps := [step0.copy, step0.copy]
                                  recipe := { recipe0 with maxRetries := 1, scanEnable := true } }
    let b (x : SeqState) (c : Cycle) := ordering (sequencing x (ejecting (inCycle .demoulding c cell)))
    let probe (p : ProbePhase) (m : BitVec 8) := modDms .a (fun d =>
      { d with probePhase := p, probeGroup := some 0, mask := m, dwellTimer := startTimer 50 }) (b .probing cyc)
    (∀ c ∈ [cyc, two], ∀ x ∈ [SeqState.stroking, .dwell, .retracting, .homing, .paused],
      (dmsOf (b x c) .a).stepTimer ≠ none ∧ (dmsOf (b x c) .a).state = x ∧ (stcOf (b x c) .a).cycle = some c ∧
        openIn (b x c) 0 c.record rec1 ∧ (dmsOf (b x c) .a).stepPos = 0 + 1 ∧ c.steps[0]? = some step0.copy ∧
        c.steps.getLast? = some step0.copy ∧ (dmsOf (b x c) .a).retries = 0 ∧
        (dmsOf (b x c) .a).order.map (·.target) = some 500) ∧
    (dmsOf cell .a).stepTimer = none ∧ (dmsOf cell .a).dwellTimer = none ∧ cyc.steps[1]? = none ∧
    two.steps[1]? = some step0.copy ∧ cyc.recipe.maxRetries = 0 ∧ cyc.recipe.scanEnable = false ∧
    two.recipe.maxRetries = 1 ∧ two.recipe.scanEnable = true ∧ step0.copy.dwell = 0 ∧ step0.copy.ceiling = 90 ∧
    (b .homing cyc).tab.stations.a.tolerance = 1 ∧ ((501 : Int) - (500 : Nat)).natAbs ≤ 1 ∧
    ¬ ((502 : Int) - (500 : Nat)).natAbs ≤ 1 ∧ cyc.waitRunning = false ∧
    (∀ p ∈ [ProbePhase.out, .back, .rest], ∀ m ∈ [(1 : BitVec 8), 3], (dmsOf (probe p m) .a).probePhase = p ∧
      (dmsOf (probe p m) .a).probeGroup = some 0 ∧ (dmsOf (probe p m) .a).state = .probing ∧
      (dmsOf (probe p m) .a).dwellTimer ≠ none ∧ (dmsOf (probe p m) .a).mask.getLsbD 1 = decide (m = 3) ∧
      (dmsOf (probe p m) .a).probeStuck = 0) ∧
    (∀ k ∈ [1, 2, 3, 4, 5, 6, 7], (1 : BitVec 8).getLsbD k = false) ∧
    heldOf (probe .rest 3) (.stationSignal .a .hold) ≠ 1 ∧
    heldOf (freshAt 5 (.stationSignal .a .hold) 1 (probe .rest 3)) (.stationSignal .a .hold) = 1 := by
  unfold openIn; decide

/-- Two Station Table entries written upward, both in range and the second out of it; a third index is outside. Zone entries
that change what only OFF admits, in OFF and not; a channel named twice; a lower ceiling and another rated power; a free and
a used map key, over a FRESH and an empty entry. -/
theorem witness_TableWrite :
    let e : List Byte := [6, 8, 100, 0, 0xF4, 1]
    let bad : List Byte := [6, 8, 99, 0, 0xF4, 1]
    let body (es : List (List Byte)) : List Byte := [3, 0, 1, 2] ++ es.flatten
    let key (n : Nat) : MapConfig := { node := 9, channel := n, target := .scaleRaw, freshLimit := 20, jumpLimit := 0 }
    let mapped := freshAt 0 (.zoneSensor 0 .zero) 0 cell
    admitted (mgmtRequest q 0x02 ([3, 0, 2, 1] ++ e)) ready ready ∧
      admitted (mgmtRequest q 0x02 (body [e, e])) ready ready ∧
      tableOf 3 = some .station ∧ stepByte 1 = some 1 ∧
      e.length = writtenSize .station ∧ (writeEntry .station 0 e ready).1 = .ok ∧
      (writeEntry .station 1 e (writeEntry .station 0 e ready).2).1 = .ok ∧
      (writeEntry .station 1 bad (writeEntry .station 0 e ready).2).1 ≠ .ok ∧ (writeEntry .station 2 e ready).1 ≠ .ok ∧
      ready.mga.image ≠ .storing ∧ (tableCount .station : Int) ≤ 2 ∧ recipeOf (recipeBytes recipe0) = some recipe0 ∧
      recipeOf (recipeBytes { recipe0 with cure := 0 }) = none ∧
      (∀ x ∈ [{ zone0 with enabled := false }, { zone0 with dutyCeiling := 900 }, { zone0 with ratedPower := 90 }],
        zoneEntryOf (zoneEntryBytes x) = some x) ∧
      zoneEntryOf (zoneEntryBytes { zone0 with slew := 0 }) = none ∧
      zone0.enabled ≠ false ∧ stateOf (inState .standby cell) zone0.station ≠ .off ∧ stateOf cell zone0.station = .off ∧
      (∀ k, (vget (vset cell.tab.zones 0 zone0) k).enabled = true →
        (vget (vset cell.tab.zones 0 zone0) k).driveNode ∈ [5]) ∧
      (let zones := vset (vset defaultTables.zones 0 zone0) 1 zone0
       (vget zones 0).enabled = true ∧ (vget zones 1).enabled = true ∧
         (vget zones 0).driveNode = (vget zones 1).driveNode ∧ (vget zones 0).driveChannel = (vget zones 1).driveChannel) ∧
      stepEntryOf (stepEntryBytes step0) = some step0 ∧ lineOf (lineBytes defaultLine) = some defaultLine ∧
      mapConfigOf (mapConfigBytes (some (key 7))) = some (some (key 7)) ∧
      mapConfigOf (mapConfigBytes none) = some none ∧ entryWithKey mapped 9 0 = some 0 ∧
      entryWithKey mapped 9 7 = none ∧ (vget mapped.tab.map 0).config.isSome = true ∧
      (vget mapped.tab.map 0).freshness = .fresh ∧ (vget mapped.tab.map 1).config = none :=
  ⟨admitted_ready _ _ rfl (by decide) rfl, admitted_ready _ _ rfl (by decide) rfl, by decide⟩

theorem witness_TableEntriesRoundTrip :
    zoneInRange zone0 = true ∧ recipeInRange recipe0 = true ∧ recipe0.revision < 256 ∧ stepInRange step0 = true ∧
      stationInRange defaultStationEntry = true ∧ lineInRange defaultLine = true ∧
      mapInRange { node := 63, channel := 255, target := .zoneSensor 31 .one, freshLimit := 20, jumpLimit := 1 } = true ∧
      mapInRange { node := 63, channel := 255, target := .scaleRaw, freshLimit := 20, jumpLimit := 0 } = true ∧
      zoneEntryOf (zoneEntryBytes zone0) = some zone0 ∧ stepEntryOf (stepEntryBytes step0) = some step0 := by decide

/-- An OPEN record, and one set of flags for each line of the table of R175. -/
theorem witness_RecordCloses :
    openIn (inCycle .opening cyc cell) 0 1 rec1 ∧ (1#16).getLsbD 0 = true ∧
      (2#16).getLsbD 1 = true ∧ (32#16).getLsbD 5 = true ∧ (64#16).getLsbD 6 = true ∧
      (256#16).getLsbD 8 = true ∧ (∀ k, 1 ≤ k → k ≤ 8 → (512#16).getLsbD k = false) ∧ (512#16).getLsbD 0 = false :=
  ⟨by unfold openIn; decide, by decide, by decide, by decide, by decide, by decide,
    by intro k h1 h2; interval_cases k <;> decide, by decide⟩

theorem witness_QueuesStayWithinCapacity : queuesFit cell ∧
    step { st cell with pending := [.budgetPeriodExpiry] } = .next (ran .budgetPeriodExpiry cell) := ⟨by decide, rfl⟩

theorem witness_RecordsKept :
    (∀ n : Nat, n = 1 ∨ n = 2 →
      vget (ran (.release q [1, 0, 0, 0]) (holding .sent { rec1 with number := n } ready)).hst.slots 0 =
        if n = 1 then .free else .held .sent { rec1 with number := n }) ∧
    isReset (.release q [1, 0, 0, 0]) = false ∧ isReset .budgetPeriodExpiry = false ∧
      ∃ t, exec .budgetPeriodExpiry (st (holding .closed rec1 ready)) = .next t :=
  ⟨by rintro _ (rfl | rfl) <;> decide, by decide, by decide, _, rfl⟩

theorem witness_CycleInvariantKept :
    cycleSound (inCycle .curing cyc cell) ∧ step { st cell with pending := [.budgetPeriodExpiry] } =
      .next (ran .budgetPeriodExpiry cell) :=
  ⟨by intro x; cases x <;> decide, rfl⟩

theorem witness_ControlQueueBounded : controlSound cell ∧
    step { st cell with pending := [.budgetPeriodExpiry] } = .next (ran .budgetPeriodExpiry cell) :=
  ⟨⟨by decide, by decide, by intro x; cases x <;> decide, by decide⟩, rfl⟩

end Sys2Proof.Tests
end

section
/-! PROOFS. The line ring: the frame check (R6), and the posting rules of PERMIT, STROKE and WEIGH frames (R15, R16). -/

namespace Sys2Proof.Machine

open Sys2Proof

/-! ### The frame check (R6) -/

/-- The check is a left fold: one more byte is one more division step. -/
theorem frameCheck_snoc (bs : List Byte) (b : Byte) : frameCheck (bs ++ [b]) = crcByte (frameCheck bs) b := by
  simp [frameCheck]

/-- The bit that a shift sends out is the register's bit 15. -/
theorem crcShift_eq (r : BitVec 16) :
    crcShift r = if r.getLsbD 15 then (r <<< 1) ^^^ 0x1021#16 else r <<< 1 := by
  simp [crcShift, BitVec.msb_eq_getLsbD_last]

/-- A byte enters the upper eight bits and eight shifts follow. -/
theorem crcByte_eq_foldl (r : BitVec 16) (b : Byte) :
    crcByte r b =
      (List.range 8).foldl (fun r _ => if r.getLsbD 15 then (r <<< 1) ^^^ 0x1021#16 else r <<< 1)
        (r ^^^ (b.setWidth 16 <<< 8)) := by
  simp only [← crcShift_eq]
  rfl

/-- Two bytes sent low byte first are the word whose halves they are. -/
theorem leNat_pair (lo hi : Byte) : leNat [lo, hi] = (hi ++ lo).toNat := by
  rw [BitVec.toNat_append, ← Nat.shiftLeft_add_eq_or_of_lt lo.isLt, Nat.shiftLeft_eq]
  simp only [leNat]
  omega

/-- A word sent low byte first is two bytes, and they are its halves. -/
theorem leBytes_two_halves (r : BitVec 16) :
    ∃ lo hi : Byte, leBytes 2 r.toNat = [lo, hi] ∧ hi ++ lo = r := by
  refine ⟨_, _, rfl, BitVec.eq_of_toNat_eq ?_⟩
  rw [← leNat_pair]
  exact leNat_leBytes_two _ r.isLt

/-- Reception compares the check over all but the last two bytes with those two. -/
theorem checkPasses_append_pair (bs : List Byte) (lo hi : Byte) :
    checkPasses (bs ++ [lo, hi]) = true ↔ frameCheck bs = hi ++ lo := by
  have hbody : (bs ++ [lo, hi]).length - 2 = bs.length := by simp
  have hcheck : field (bs ++ [lo, hi]) bs.length 2 = (hi ++ lo).toNat := by
    rw [← leNat_pair]; simp [field]
  rw [checkPasses, hbody, hcheck, List.take_left, decide_eq_true_iff, BitVec.toNat_inj]

/-- Settles O12: the fold over the bytes gives the division, and two bytes low byte first are the check word. -/
theorem frameCheckRule : Obligations.FrameCheckRule := by
  refine ⟨rfl, fun bs b => ?_, checkPasses_append_pair, fun f => ?_⟩
  · rw [frameCheck_snoc, crcByte_eq_foldl]
  · obtain ⟨lo, hi, hbytes, hword⟩ := leBytes_two_halves
      (frameCheck ([f.dest, f.src, f.kind, f.hops, BitVec.ofNat 8 f.payload.length] ++ f.payload))
    exact ⟨_, lo, hi, by rw [frameBytes, hbytes], hword, rfl⟩

/-! ### Posts while OUT is UP (R4) -/

/-- While OUT is UP a posting rule is applied to the control queue. -/
theorem postControl_of_up {s : Block} (hup : s.rpu.outPort.link = .up) (rule : List ControlFrame → List ControlFrame) :
    postControl rule s = { s with rpu := { s.rpu with controlQ := rule s.rpu.controlQ } } := by
  simp [postControl, outUp, hup]

/-! ### PERMIT and STROKE frames (R15) -/

/-- The new frame takes the place of the first that satisfies `p`. -/
theorem replaceOrJoin_replaces {p : ControlFrame → Bool} {pre : List ControlFrame} {x : ControlFrame}
    (hpre : ∀ f ∈ pre, p f = false) (hx : p x = true) (new : ControlFrame) (post : List ControlFrame) :
    replaceOrJoin p new (pre ++ [x] ++ post) = pre ++ [new] ++ post := by
  induction pre with
  | nil => simp [replaceOrJoin, hx]
  | cons f fs ih =>
    obtain ⟨hf, hfs⟩ := List.forall_mem_cons.mp hpre
    simpa [replaceOrJoin, hf] using ih hfs

/-- With no frame that satisfies `p` the new one joins the back. -/
theorem replaceOrJoin_joins {p : ControlFrame → Bool} {q : List ControlFrame} (hq : ∀ f ∈ q, p f = false)
    (new : ControlFrame) : replaceOrJoin p new q = q ++ [new] := by
  induction q with
  | nil => rfl
  | cons f fs ih =>
    obtain ⟨hf, hfs⟩ := List.forall_mem_cons.mp hq
    simp [replaceOrJoin, hf, ih hfs]

/-- The control queue after a PERMIT post. -/
theorem postPermit_controlQ_of_up {s : Block} (hup : s.rpu.outPort.link = .up) (st : Station) :
    (postPermit st s).rpu.controlQ = replaceOrJoin (isPermitOf st)
      (.permit st (s.tab.stations.get st).pressNode (stcOf s st).closeOk (stcOf s st).openOk (permitRecord s st))
      s.rpu.controlQ := by
  simp [postPermit, postControl_of_up hup]

/-- Settles O17: both posts are `replaceOrJoin` on the control queue while OUT is UP. -/
theorem permitAndStrokeReplaceInPlace : Obligations.PermitAndStrokeReplaceInPlace := by
  intro st s hup permit
  refine ⟨fun pre x post hq hx hpre => ?_, postPermit_spec st s, fun hnone => ?_, fun o => ⟨?_, ?_⟩⟩
  · rw [postPermit_controlQ_of_up hup, hq, replaceOrJoin_replaces hpre hx]
  · rw [postPermit_controlQ_of_up hup, replaceOrJoin_joins hnone]
  · intro pre x post hq hx hpre
    rw [postStroke, postControl_of_up hup, hq, replaceOrJoin_replaces hpre hx]
  · intro hnone
    rw [postStroke, postControl_of_up hup, replaceOrJoin_joins hnone]

/-! ### WEIGH frames (R16) -/

/-- The frame removed is the first WEIGH frame; the others keep their order. -/
theorem dropFirstWeigh_removes {pre : List ControlFrame} {x : ControlFrame} (hpre : ∀ f ∈ pre, isWeigh f = false)
    (hx : isWeigh x = true) (post : List ControlFrame) : dropFirstWeigh (pre ++ [x] ++ post) = pre ++ post := by
  induction pre with
  | nil => simp [dropFirstWeigh, hx]
  | cons f fs ih =>
    obtain ⟨hf, hfs⟩ := List.forall_mem_cons.mp hpre
    simpa [dropFirstWeigh, hf] using ih hfs

/-- Of the WEIGH frames the oldest is gone. -/
theorem filter_isWeigh_dropFirstWeigh (q : List ControlFrame) :
    (dropFirstWeigh q).filter isWeigh = (q.filter isWeigh).tail := by
  induction q with
  | nil => rfl
  | cons f fs ih =>
    by_cases hf : isWeigh f = true
    · simp [dropFirstWeigh, hf]
    · simp [dropFirstWeigh, hf, ih]

/-- With fewer than two WEIGH frames held nothing is removed. -/
theorem putWeigh_of_lt {q : List ControlFrame} (hlt : (q.filter isWeigh).length < 2) (new : ControlFrame) :
    putWeigh new q = q ++ [new] := by
  rw [putWeigh, if_pos hlt]

/-- With two held the older gives way. -/
theorem putWeigh_of_ge {q : List ControlFrame} (hge : 2 ≤ (q.filter isWeigh).length) (new : ControlFrame) :
    putWeigh new q = dropFirstWeigh q ++ [new] := by
  rw [putWeigh, if_neg (Nat.not_lt.mpr hge)]

/-- A WEIGH post leaves at most two WEIGH frames where at most two were held. -/
theorem weighCount_putWeigh_le {q : List ControlFrame} (hle : (q.filter isWeigh).length ≤ 2) (new : ControlFrame) :
    ((putWeigh new q).filter isWeigh).length ≤ 2 := by
  have hnew : ([new].filter isWeigh).length ≤ 1 := List.length_filter_le _ _
  rcases Nat.lt_or_ge (q.filter isWeigh).length 2 with hlt | hge
  · rw [putWeigh_of_lt hlt, List.filter_append, List.length_append]
    omega
  · rw [putWeigh_of_ge hge, List.filter_append, List.length_append, filter_isWeigh_dropFirstWeigh, List.length_tail]
    omega

/-- Settles O18: the post is `putWeigh` on the control queue, by whether two are already held. -/
theorem weighPosting : Obligations.WeighPosting := by
  intro n s hup new
  rw [postWeigh, postControl_of_up hup]
  refine ⟨fun hlt => ?_, fun pre x post hq hpre hx hone => ?_, fun hle => weighCount_putWeigh_le hle new⟩
  · rw [putWeigh_of_lt hlt]
  · have hnone : pre.filter isWeigh = [] := by simpa [List.filter_eq_nil_iff] using hpre
    have htwo : 2 ≤ ((pre ++ [x] ++ post).filter isWeigh).length := by
      simp [List.filter_append, hnone, hx, hone]
    rw [hq, putWeigh_of_ge htwo, dropFirstWeigh_removes hpre hx]

end Sys2Proof.Machine
end

section
/-! PROOFS. The charge weighing: TARE and ZERO, their checks and all they change (R131, R132). -/

namespace Sys2Proof.Machine

open Sys2Proof

/-! ### Scale commands that are admitted (R130, R183) -/

/-- An admitted TARE ends with the answer of its owner. -/
theorem exec_tare_admitted {q : Sender} {sb : Byte} {s : State} {s1 : Block}
    (h : admitted (scaleRequest q 1 sb) s.toBlock s1) :
    exec (.tare q sb) s = .next (s.closing (answer q codeScale (ownTare s1))) :=
  (finish_admitted h _).trans (by rw [serve_admitted h q rfl])

/-- An admitted ZERO ends with the answer of its owner. -/
theorem exec_zero_admitted {q : Sender} {sb : Byte} {s : State} {s1 : Block}
    (h : admitted (scaleRequest q 2 sb) s.toBlock s1) :
    exec (.zero q sb) s = .next (s.closing (answer q codeScale (ownZero s1))) :=
  (finish_admitted h _).trans (by rw [serve_admitted h q rfl])

/-! ### The window and the session (R123, R126, R131, R132) -/

theorem weighing_iff (s : Block) :
    weighing s = true ↔ ∃ v, s.scu.session = some v ∧ (v.state = .loading ∨ v.state = .settling) := by
  simp [weighing, Option.any_eq_true]

theorem windowFull_iff (s : Block) :
    windowFull s = true ↔ 2 ^ s.tab.line.windowCode ≤ s.scu.window.length :=
  decide_eq_true_iff

/-- The filtered gross weight as R126 gives it, with the rounded mean written out. -/
theorem filteredGross_eq (s : Block) :
    filteredGross s =
      (if 2 ^ s.tab.line.windowCode ≤ s.scu.window.length then
        ((s.scu.window.map (·.net)).sum + (2 ^ s.tab.line.windowCode / 2 : Nat)) / ((2 ^ s.tab.line.windowCode : Nat) : Int)
      else ((s.scu.window.map (·.net)).getLast?).getD 0) + s.scu.tare := by
  simp only [filteredGross, filteredNet, windowFull_iff]
  rfl

/-- With no session in LOADING a window that is cleared asks for no evaluation (R138). -/
theorem clearWindow_of_not_weighing {s : Block} (h : weighing s = false) :
    clearWindow s = modScu (fun u => { u with window := [], stable := false, dwell := none }) s := by
  unfold clearWindow evalIfLoading
  cases hs : s.scu.session with
  | none => simp [modScu, hs]
  | some v =>
    have hv : v.state ≠ .loading := fun e =>
      Bool.false_ne_true (h.symm.trans ((weighing_iff s).mpr ⟨v, hs, .inl e⟩))
    simp [modScu, hs, hv]

/-! ### The answer of each command, by its checks in their order -/

section Answers

variable {s : Block}

theorem ownTare_of_weighing (h : weighing s = true) : ownTare s = refuse .busy s := by
  simp [ownTare, h]

theorem ownTare_of_short_window (h : weighing s = false) (hn : windowFull s = false) :
    ownTare s = refuse .notAllowed s := by
  simp [ownTare, h, hn]

theorem ownTare_of_full_window (h : weighing s = false) (hn : windowFull s = true) :
    ownTare s = accept (modScu (fun u => { u with
      tare := filteredGross s
      window := u.window.map fun e => { e with net := e.net - (filteredGross s - s.scu.tare) } }) s) := by
  simp [ownTare, h, hn]

theorem ownZero_of_weighing (h : weighing s = true) : ownZero s = refuse .busy s := by
  simp [ownZero, h]

theorem ownZero_of_unstable (h : weighing s = false) (hs : s.scu.stable = false) :
    ownZero s = refuse .notAllowed s := by
  simp [ownZero, h, hs]

theorem ownZero_of_heavy (h : weighing s = false) (hw : s.tab.line.capacity < (filteredGross s).natAbs * 50) :
    ownZero s = refuse .notAllowed s := by
  simp [ownZero, h, hw]

theorem ownZero_of_same_zero (h : weighing s = false) (hs : s.scu.stable = true)
    (hw : (filteredGross s).natAbs * 50 ≤ s.tab.line.capacity) (hz : meanRaw s = s.tab.line.zero) :
    ownZero s = accept s := by
  simp [ownZero, h, hs, hz, Nat.not_lt.mpr hw]

/-- A new scale zero clears the window; no station changes, so the event moves no target and posts no permit. -/
theorem ownZero_of_new_zero (h : weighing s = false) (hs : s.scu.stable = true)
    (hw : (filteredGross s).natAbs * 50 ≤ s.tab.line.capacity) (hz : meanRaw s ≠ s.tab.line.zero) :
    ownZero s = accept (modScu (fun u => { u with window := [], stable := false, dwell := none })
      (putScaleZero (meanRaw s) s)) := by
  have hclear : clearWindow (putScaleZero (meanRaw s) s) = modScu _ (putScaleZero (meanRaw s) s) :=
    clearWindow_of_not_weighing (s := putScaleZero (meanRaw s) s) h
  have hevent := event_of_stc (fun b => clearWindow (putScaleZero (meanRaw s) b)) s (by rw [hclear]; rfl)
  simp [ownZero, h, hs, hz, Nat.not_lt.mpr hw, hevent, hclear]

end Answers

/-- Settles O37: each clause is the owner's answer under its checks, posted as the reply. -/
theorem tareAndZero : Obligations.TareAndZero := by
  intro q sb s s1 u n busy mean gross zero
  have hidle : ¬ busy → weighing s1 = false := fun h =>
    Bool.eq_false_iff.mpr fun hw => h ((weighing_iff s1).mp hw)
  have hgross : filteredGross s1 = gross := filteredGross_eq s1
  refine ⟨fun hadm => ?_, fun hadm => ?_⟩
  · unfold answered
    rw [exec_tare_admitted hadm]
    refine ⟨fun hb => ?_, fun hb hshort => ?_, fun hb hfull => ?_⟩
    · rw [ownTare_of_weighing ((weighing_iff s1).mpr hb)]; rfl
    · have hn : windowFull s1 = false :=
        Bool.eq_false_iff.mpr fun hf => absurd ((windowFull_iff s1).mp hf) (Nat.not_le.mpr hshort)
      rw [ownTare_of_short_window (hidle hb) hn]; rfl
    · rw [ownTare_of_full_window (hidle hb) ((windowFull_iff s1).mpr hfull), hgross]; rfl
  · unfold answered
    rw [exec_zero_admitted hadm]
    refine ⟨fun hb => ?_, fun hb hs => ?_, fun hb _ hw => ?_, fun hb hs hw => ⟨fun hz => ?_, fun hz => ?_⟩⟩
    · rw [ownZero_of_weighing ((weighing_iff s1).mpr hb)]; rfl
    · rw [ownZero_of_unstable (hidle hb) hs]; rfl
    · rw [ownZero_of_heavy (hidle hb) (hgross ▸ hw)]; rfl
    · rw [ownZero_of_same_zero (hidle hb) hs (hgross ▸ hw) hz]; rfl
    · rw [ownZero_of_new_zero (hidle hb) hs (hgross ▸ hw) hz]; rfl

end Sys2Proof.Machine
end

section
/-! PROOFS. The part history: the close of a record and its verdict (R175). -/

namespace Sys2Proof.Machine

open Sys2Proof

/-! ### The slots at a close (R175) -/

/-- The OPEN record with the number is closed under the table of verdicts. -/
theorem closeSlot_opened (r : Record) (time : Option Stamp) :
    closeSlot r.number time (.held .opened r) =
      .held .closed { r with closedAt := time, verdict := verdictOf r.flags } := by
  simp [closeSlot]

/-- A slot without the number stays as it is, whatever its state. -/
theorem closeSlot_of_other_number {sl : HistorySlot} {n : Nat} (hn : slotNumber sl ≠ n) (time : Option Stamp) :
    closeSlot n time sl = sl := by
  cases sl with
  | free => rfl
  | held h r =>
    cases h with
    | opened => exact if_neg hn
    | closed => rfl
    | sent => rfl

/-- A map that moves no entry but one is a write of that entry. -/
theorem vmap_eq_vset {α : Type} {n : Nat} (f : α → α) (v : Vector α n) (i : Fin n)
    (hrest : ∀ j, j ≠ i → f (vget v j) = vget v j) : vmap f v = vset v i (f (vget v i)) := by
  apply vget_ext
  intro j
  rw [vget_vmap, vget_vset]
  split
  next hij => rw [hij]
  next hij => exact hrest j (Ne.symm hij)

/-- The number picks the record's own slot, and no other slot moves. -/
theorem vmap_closeSlot {s : Block} {i : Fin 48} {n : Nat} {r : Record} (h : openIn s i n r) (time : Option Stamp) :
    vmap (closeSlot n time) s.hst.slots =
      vset s.hst.slots i (.held .closed { r with closedAt := time, verdict := verdictOf r.flags }) := by
  obtain ⟨hslot, rfl, hothers⟩ := h
  rw [vmap_eq_vset _ _ i fun j hj => closeSlot_of_other_number (hothers j hj) time, hslot, closeSlot_opened]

/-- The close writes the record's slot, and HISTORY_HIGH is judged over the slots that it leaves. -/
theorem closeRecord_of_openIn {s : Block} {i : Fin 48} {n : Nat} {r : Record} (h : openIn s i n r) :
    closeRecord n s = judgeHigh { s with hst := { s.hst with
      slots := vset s.hst.slots i
        (.held .closed { r with closedAt := s.hst.lineTime, verdict := verdictOf r.flags }) } } := by
  rw [← vmap_closeSlot h]
  rfl

/-! ### The table of verdicts (R175) -/

/-- The table over the flag numbers: 0, then 1 to 5, then 6 to 8. -/
theorem verdictOf_eq (f : BitVec 16) :
    verdictOf f =
      if f.getLsbD 0 then .aborted
      else if (List.range' 1 5).any f.getLsbD then .reject
      else if (List.range' 6 3).any f.getLsbD then .suspect
      else .good := by
  simp [verdictOf, hasFlag, recFlagNum, List.range', or_assoc]

/-- One of the flags `lo` to `lo + d` is set. -/
theorem any_range'_eq_true (f : BitVec 16) (lo d : Nat) :
    (List.range' lo (d + 1)).any f.getLsbD = true ↔ ∃ k, lo ≤ k ∧ k ≤ lo + d ∧ f.getLsbD k = true := by
  simp [← Nat.add_assoc, and_assoc]

/-- None of the flags `lo` to `lo + d` is set. -/
theorem any_range'_eq_false (f : BitVec 16) (lo d : Nat) :
    (List.range' lo (d + 1)).any f.getLsbD = false ↔ ∀ k, lo ≤ k → k ≤ lo + d → f.getLsbD k = false := by
  simp [← Nat.add_assoc]

/-- Settles O55: of all slots only the record's own has its number, and each line of the table is one branch of
`verdictOf_eq`. -/
theorem recordCloses : Obligations.RecordCloses := by
  refine ⟨fun n s i r hopen => closeRecord_of_openIn hopen, fun f => ?_⟩
  · rw [verdictOf_eq]
    refine ⟨fun h0 => ?_, fun h0 hset => ?_, fun h0 hclear => ?_⟩
    · simp [h0]
    · have hreject := (any_range'_eq_true f 1 4).mpr hset
      simp only [h0, hreject, Bool.false_eq_true, if_true, if_false]
    · have hreject := (any_range'_eq_false f 1 4).mpr hclear
      refine ⟨fun hset => ?_, fun hnone => ?_⟩
      · have hsuspect := (any_range'_eq_true f 6 2).mpr hset
        simp only [h0, hreject, hsuspect, Bool.false_eq_true, if_true, if_false]
      · have hsuspect := (any_range'_eq_false f 6 2).mpr hnone
        simp only [h0, hreject, hsuspect, Bool.false_eq_true, if_false]

end Sys2Proof.Machine
end

section
/-! PROOFS. What every command keeps (the invariants of R9 to R19, R59, R84, R87, R169, R174, R182): one predicate over the
blocks a command passes through, and one lemma per primitive change of the blocks. -/

namespace Sys2Proof.Machine

open Sys2Proof

/-! ### What one command may make of a record (R169, R174, R179) -/

/-- Commands by what they may do to links and records: most do `work`; PART frames are placed by a `collect`; a `release`
frees records up to a number; a `link` command moves link states; a `restart` frees every record and keeps the links. -/
inductive Phase where
  | work
  | collect
  | release (n : Nat)
  | link
  | restart
  | powerOn

/-- A write into an OPEN record keeps its number, its station and every flag set (R174). -/
def recordKept (r r' : Record) : Prop :=
  r'.number = r.number ∧ r'.station = r.station ∧ flagsKept r.flags r'.flags

theorem recordKept.refl (r : Record) : recordKept r r := ⟨rfl, rfl, BitVec.and_self⟩

theorem recordKept.trans {a b c : Record} (h : recordKept a b) (k : recordKept b c) : recordKept a c := by
  obtain ⟨hn, hs, hf⟩ := h
  obtain ⟨kn, ks, kf⟩ := k
  refine ⟨kn.trans hn, ks.trans hs, ?_⟩
  unfold flagsKept at *
  rw [← hf, BitVec.and_assoc, kf]

/-- What a slot may become within a command of the given phase. -/
def slotMoves (k : Phase) : HistorySlot → HistorySlot → Prop
  | .free, new => k = .work ∨ new = .free ∨ ∃ r, new = .held .opened r
  | .held .opened r, new => ∃ r', recordKept r r' ∧ (new = .held .opened r' ∨ (k = .work ∧ new = .held .closed r'))
  | .held .closed r, new => new = .held .closed r ∨ (k = .collect ∧ new = .held .sent r)
  | .held .sent r, new => new = .held .sent r ∨
      ∃ n, k = .release n ∧ r.number ≤ n ∧ (new = .free ∨ ∃ r', new = .held .opened r')

theorem slotMoves.refl (k : Phase) (sl : HistorySlot) : slotMoves k sl sl := by
  match sl with
  | .free => exact .inr (.inl rfl)
  | .held .opened r => exact ⟨r, .refl r, .inl rfl⟩
  | .held .closed r => exact .inl rfl
  | .held .sent r => exact .inl rfl

theorem slotMoves.trans {k : Phase} {a b c : HistorySlot} (h : slotMoves k a b) (g : slotMoves k b c) :
    slotMoves k a c := by
  match a with
  | .free =>
    rcases h with h | rfl | ⟨r, rfl⟩
    · exact .inl h
    · exact g
    · obtain ⟨r', -, rfl | ⟨hk, -⟩⟩ := g
      · exact .inr (.inr ⟨r', rfl⟩)
      · exact .inl hk
  | .held .opened r =>
    obtain ⟨r', hr, rfl | ⟨hk, rfl⟩⟩ := h
    · obtain ⟨r'', hr', hc⟩ := g
      exact ⟨r'', hr.trans hr', hc⟩
    · rcases g with rfl | ⟨hc, -⟩
      · exact ⟨r', hr, .inr ⟨hk, rfl⟩⟩
      · exact absurd (hk.symm.trans hc) (by simp)
  | .held .closed r =>
    rcases h with rfl | ⟨hk, rfl⟩
    · exact g
    · rcases g with rfl | ⟨n, hn, -⟩
      · exact .inr ⟨hk, rfl⟩
      · exact absurd (hk.symm.trans hn) (by simp)
  | .held .sent r =>
    rcases h with rfl | ⟨n, hk, hle, rfl | ⟨r', rfl⟩⟩
    · exact g
    · rcases g with hw | hc
      · exact absurd (hk.symm.trans hw) (by simp)
      · exact .inr ⟨n, hk, hle, hc⟩
    · obtain ⟨r'', -, rfl | ⟨hw, -⟩⟩ := g
      · exact .inr ⟨n, hk, hle, .inr ⟨r'', rfl⟩⟩
      · exact absurd (hk.symm.trans hw) (by simp)

/-! ### The invariants, station by station and zone by zone -/

/-- What `cycleSound` asks of one station. -/
def stationSound (c : Stc) (d : Dms) : Prop :=
  c.closeOk = (decide (c.state = .pressLoad) && c.heatReady) ∧ c.openOk = decide (c.state = .opening) ∧
    c.cycle.isSome = isCycleState c.state ∧
    (d.state = .idle ∨ d.state = .done ∨ c.state = .demoulding ∨ c.state = .held)

theorem cycleSound_iff (s : Block) : cycleSound s ↔ ∀ st, stationSound (stcOf s st) (dmsOf s st) := Iff.rfl

/-- What `controlSound` asks of the control queue. -/
def queueSound (q : List ControlFrame) : Prop :=
  (q.filterMap driveNodeOf).Nodup ∧ (q.filterMap driveNodeOf).length ≤ 6 ∧
    (∀ st, (q.filter (isPermitOf st)).length ≤ 1 ∧ (q.filter (isStrokeOf st)).length ≤ 1) ∧
    (q.filter isWeigh).length ≤ 2

/-- A zone that is DISABLED, without a timer and without a grant (R87). -/
def zoneIdle (c : Zone) : Prop := c.state = .disabled ∧ c.timer = none ∧ c.blindHold = none ∧ c.g = 0

/-- Every zone that is not enabled idles. -/
def zonesSound (t : Vector ZoneEntry 32) (z : Vector Zone 32) : Prop :=
  ∀ i, (vget t i).enabled = false → zoneIdle (vget z i)

theorem controlSound_iff (s : Block) : controlSound s ↔
    queueSound s.rpu.controlQ ∧ zoneTableOk s.tab.zones = true ∧ zonesSound s.tab.zones s.zrg.zones := by
  unfold controlSound queueSound zonesSound zoneIdle entryOf zoneOf
  tauto

/-! ### The predicate -/

/-- The blocks `s` that a command begun at `s0` passes through: link states, records and the three invariants. -/
structure Keeps (k : Phase) (s0 s : Block) : Prop where
  links : k ≠ .link → k ≠ .powerOn →
    s.rpu.inPort.link = s0.rpu.inPort.link ∧ s.rpu.outPort.link = s0.rpu.outPort.link
  queues : queuesFit s0 → queuesFit s
  slots : k ≠ .restart → k ≠ .powerOn → ∀ i, slotMoves k (vget s0.hst.slots i) (vget s.hst.slots i)
  cycles : cycleSound s0 → cycleSound s
  control : controlSound s0 → controlSound s

variable {k : Phase} {s0 s : Block}

theorem Keeps.refl (k : Phase) (s : Block) : Keeps k s s :=
  ⟨fun _ _ => ⟨rfl, rfl⟩, id, fun _ _ _ => .refl _ _, id, id⟩

/-- A change that none of the invariants reads. -/
theorem Keeps.quiet (h : Keeps k s0 s) (t : Block)
    (hrpu : t.rpu = s.rpu := by simp) (hreq : t.mga.requests = s.mga.requests := by simp)
    (hslots : t.hst.slots = s.hst.slots := by simp) (hstc : t.stc = s.stc := by simp)
    (hdms : t.dms = s.dms := by simp) (htab : t.tab.zones = s.tab.zones := by simp)
    (hzones : t.zrg.zones = s.zrg.zones := by simp) : Keeps k s0 t where
  links := by rw [hrpu]; exact h.links
  queues := by unfold queuesFit; rw [hrpu, hreq]; exact h.queues
  slots := by rw [hslots]; exact h.slots
  cycles := by simpa only [cycleSound_iff, stcOf, dmsOf, hstc, hdms] using h.cycles
  control := by simpa only [controlSound_iff, hrpu, htab, hzones] using h.control

/-- A change of one station's controller that keeps the station sound. -/
theorem Keeps.modStc_of (h : Keeps k s0 s) (st : Station) (f : Stc → Stc)
    (hf : cycleSound s0 → stationSound (stcOf s st) (dmsOf s st) → stationSound (f (stcOf s st)) (dmsOf s st)) :
    Keeps k s0 (modStc st f s) where
  links := h.links
  queues := h.queues
  slots := h.slots
  control := h.control
  cycles h0 st' := by
    have hs := (cycleSound_iff s).mp (h.cycles h0)
    change stationSound (stcOf (modStc st f s) st') (dmsOf s st')
    rw [stcOf_modStc]
    split
    next e => exact e ▸ hf h0 (hs st)
    next => exact hs st'

/-- What `cycleSound` reads of a controller. -/
def coreOf (c : Stc) : StationState × Bool × Bool × Bool × Bool :=
  (c.state, c.closeOk, c.openOk, c.cycle.isSome, c.heatReady)

theorem stationSound_of_core {c c' : Stc} {d d' : Dms} (hc : coreOf c' = coreOf c) (hd : d'.state = d.state)
    (h : stationSound c d) : stationSound c' d' := by
  simp only [coreOf, Prod.mk.injEq] at hc
  obtain ⟨h1, h2, h3, h4, h5⟩ := hc
  unfold stationSound
  rw [h1, h2, h3, h4, h5, hd]
  exact h

/-- A change of a controller in fields that `cycleSound` does not read. -/
theorem Keeps.modStc (h : Keeps k s0 s) (st : Station) (f : Stc → Stc)
    (hf : ∀ c, coreOf (f c) = coreOf c := by intro c; simp [coreOf]) : Keeps k s0 (modStc st f s) :=
  h.modStc_of st f fun _ => stationSound_of_core (hf _) rfl

theorem Keeps.modCycle (h : Keeps k s0 s) (st : Station) (f : Cycle → Cycle) : Keeps k s0 (modCycle st f s) :=
  h.modStc st _

/-- A change of one station's sequencer that keeps the station sound. -/
theorem Keeps.modDms_of (h : Keeps k s0 s) (st : Station) (f : Dms → Dms)
    (hf : cycleSound s0 → stationSound (stcOf s st) (dmsOf s st) → stationSound (stcOf s st) (f (dmsOf s st))) :
    Keeps k s0 (modDms st f s) where
  links := h.links
  queues := h.queues
  slots := h.slots
  control := h.control
  cycles h0 st' := by
    have hs := (cycleSound_iff s).mp (h.cycles h0)
    change stationSound (stcOf s st') (dmsOf (Machine.modDms st f s) st')
    rw [dmsOf_modDms]
    split
    next e => exact e ▸ hf h0 (hs st)
    next => exact hs st'

/-- A change of a sequencer that leaves its state as it was. -/
theorem Keeps.modDms (h : Keeps k s0 s) (st : Station) (f : Dms → Dms)
    (hf : ∀ d, (f d).state = d.state := by intro d; rfl) : Keeps k s0 (modDms st f s) :=
  h.modDms_of st f fun _ => stationSound_of_core rfl (hf _)

/-- A change of a zone that is enabled, or that leaves an idle zone idle. -/
theorem Keeps.modZone (h : Keeps k s0 s) (z : Fin 32) (f : Zone → Zone)
    (hf : controlSound s0 → (entryOf s z).enabled = true ∨ (zoneIdle (zoneOf s z) → zoneIdle (f (zoneOf s z)))) :
    Keeps k s0 (modZone z f s) where
  links := h.links
  queues := h.queues
  slots := h.slots
  cycles := h.cycles
  control h0 := by
    have hs := (controlSound_iff s).mp (h.control h0)
    obtain ⟨hq, ht, hz⟩ := hs
    refine (controlSound_iff _).mpr ⟨hq, ht, fun i hi => ?_⟩
    change zoneIdle (zoneOf (Machine.modZone z f s) i)
    rw [zoneOf_modZone]
    split
    next e =>
      subst e
      rcases hf h0 with he | hidle
      · exact absurd (he.symm.trans hi) (by simp)
      · exact hidle (hz z hi)
    next => exact hz i hi

/-- A zone that does anything is enabled. -/
theorem Keeps.enabled_of_busy (h : Keeps k s0 s) (z : Fin 32) (hb : ¬ zoneIdle (zoneOf s z)) (h0 : controlSound s0) :
    (entryOf s z).enabled = true := by
  obtain ⟨-, -, hz⟩ := (controlSound_iff s).mp (h.control h0)
  by_contra he
  exact hb (hz z (Bool.eq_false_iff.mpr he))

/-- A new control queue that is as bounded as the old one. -/
theorem Keeps.controlQ (h : Keeps k s0 s) (q : List ControlFrame)
    (hq : controlSound s0 → queueSound s.rpu.controlQ → queueSound q) :
    Keeps k s0 { s with rpu := { s.rpu with controlQ := q } } where
  links := h.links
  queues := h.queues
  slots := h.slots
  cycles := h.cycles
  control h0 := by
    obtain ⟨hs, ht, hz⟩ := (controlSound_iff s).mp (h.control h0)
    exact (controlSound_iff _).mpr ⟨hq h0 hs, ht, hz⟩

theorem Keeps.postControl (h : Keeps k s0 s) (rule : List ControlFrame → List ControlFrame)
    (hq : controlSound s0 → queueSound s.rpu.controlQ → queueSound (rule s.rpu.controlQ)) :
    Keeps k s0 (postControl rule s) := by
  unfold Machine.postControl
  split
  · exact h.controlQ _ hq
  · exact h

/-- A change of the records that the phase allows. -/
theorem Keeps.modHst (h : Keeps k s0 s) (f : Hst → Hst)
    (hf : k ≠ .restart → k ≠ .powerOn →
      ∀ i, slotMoves k (vget s.hst.slots i) (vget (f s.hst).slots i)) : Keeps k s0 (modHst f s) where
  links := h.links
  queues := h.queues
  slots h1 h2 i := (h.slots h1 h2 i).trans (hf h1 h2 i)
  cycles := h.cycles
  control := h.control

/-- A write into OPEN records (R174). -/
theorem Keeps.modRecord (h : Keeps k s0 s) (n : Nat) (f : Record → Record) (hf : ∀ r, recordKept r (f r)) :
    Keeps k s0 (modRecord n f s) := by
  refine h.modHst _ fun _ _ i => ?_
  simp only [vget_vmap]
  unfold writeSlot
  split
  next r hr =>
    rw [hr]
    split
    · exact ⟨f r, hf r, .inl rfl⟩
    · exact .refl _ _
  next => exact .refl _ _

theorem Keeps.modOpenRecord (h : Keeps k s0 s) (st : Station) (f : Record → Record)
    (hf : ∀ r, recordKept r (f r) := by intro r; exact ⟨rfl, rfl, BitVec.and_self⟩) :
    Keeps k s0 (modOpenRecord st f s) := by
  unfold Machine.modOpenRecord
  split
  · exact h.modRecord _ f hf
  · exact h

theorem recordKept_withFlag (f : RecFlag) (r : Record) : recordKept r (withFlag f r) := by
  refine ⟨rfl, rfl, ?_⟩
  unfold withFlag flagsKept
  ext i
  simp only [BitVec.getElem_and, BitVec.getElem_or]
  cases r.flags[i] <;> simp

theorem Keeps.setFlag (h : Keeps k s0 s) (st : Station) (f : RecFlag) : Keeps k s0 (setFlag st f s) :=
  h.modOpenRecord st _ (recordKept_withFlag f)

/-! ### Conditions, counters and the info queue -/

theorem Keeps.setLevel (h : Keeps k s0 s) (c : Cond) (on : Bool) : Keeps k s0 (setLevel c on s) := h.quiet _

theorem Keeps.latch (h : Keeps k s0 s) (n : Nat) : Keeps k s0 (latch n s) := h.quiet _

theorem Keeps.latchCond (h : Keeps k s0 s) (c : Cond) : Keeps k s0 (latchCond c s) := h.latch _

theorem bump_le (n : Nat) : bump n ≤ 65535 := Nat.min_le_right _ _

/-- A change of the counters that leaves them within 16 bits. -/
theorem Keeps.modCounters (h : Keeps k s0 s) (f : Counters → Counters)
    (hf : ∀ c, countersFit c → countersFit (f c)) : Keeps k s0 (modCounters f s) where
  links := h.links
  queues h0 := by
    obtain ⟨h1, h2, h3, h4, h5⟩ := h.queues h0
    exact ⟨h1, h2, h3, h4, hf _ h5⟩
  slots := h.slots
  cycles := h.cycles
  control := h.control

theorem Keeps.countCrcErr (h : Keeps k s0 s) : Keeps k s0 (countCrcErr s) :=
  (h.modCounters (fun c => { c with crcErr := bump c.crcErr }) fun _ hc => ⟨bump_le _, hc.2⟩).latchCond _

theorem Keeps.countReturned (h : Keeps k s0 s) : Keeps k s0 (countReturned s) :=
  h.modCounters _ fun _ ⟨h1, h2⟩ => ⟨h1, bump_le _, h2.2⟩

theorem Keeps.countHopExpired (h : Keeps k s0 s) : Keeps k s0 (countHopExpired s) :=
  h.modCounters _ fun _ ⟨h1, h2, h3⟩ => ⟨h1, h2, bump_le _, h3.2⟩

theorem Keeps.countWrongKind (h : Keeps k s0 s) : Keeps k s0 (countWrongKind s) :=
  h.modCounters _ fun _ ⟨h1, h2, h3, h4⟩ => ⟨h1, h2, h3, bump_le _, h4.2⟩

theorem Keeps.countFwdDrop (h : Keeps k s0 s) : Keeps k s0 (countFwdDrop s) :=
  (h.modCounters (fun c => { c with fwdDrop := bump c.fwdDrop }) fun _ ⟨h1, h2, h3, h4, h5⟩ => ⟨h1, h2, h3, h4, bump_le _, h5.2⟩).latchCond _

theorem Keeps.countDisconnect (h : Keeps k s0 s) : Keeps k s0 (countDisconnect s) :=
  h.modCounters _ fun _ ⟨h1, h2, h3, h4, h5, h6⟩ => ⟨h1, h2, h3, h4, h5, bump_le _, h6.2⟩

theorem Keeps.countReqDrop (h : Keeps k s0 s) : Keeps k s0 (countReqDrop s) :=
  (h.modCounters (fun c => { c with reqDrop := bump c.reqDrop }) fun _ ⟨h1, h2, h3, h4, h5, h6, h7⟩ => ⟨h1, h2, h3, h4, h5, h6, bump_le _, h7.2⟩).latchCond _

theorem Keeps.countRxFrames (h : Keeps k s0 s) : Keeps k s0 (countRxFrames s) :=
  h.modCounters _ fun _ ⟨h1, h2, h3, h4, h5, h6, h7, h8⟩ => ⟨h1, h2, h3, h4, h5, h6, h7, bump_le _, h8.2⟩

theorem Keeps.countTxFrames (h : Keeps k s0 s) : Keeps k s0 (countTxFrames s) :=
  h.modCounters _ fun _ ⟨h1, h2, h3, h4, h5, h6, h7, h8, _⟩ => ⟨h1, h2, h3, h4, h5, h6, h7, h8, bump_le _⟩

/-- A frame joins an info queue with room. -/
theorem Keeps.joinInfo (h : Keeps k s0 s) (f : InfoFrame) (hroom : s.rpu.infoQ.length < 16) :
    Keeps k s0 (joinInfo f s) where
  links := h.links
  queues h0 := by
    obtain ⟨h1, -, h3, h4, h5⟩ := h.queues h0
    exact ⟨h1, by simpa using hroom, h3, h4, h5⟩
  slots := h.slots
  cycles := h.cycles
  control := h.control

theorem Keeps.postReply (h : Keeps k s0 s) (f : InfoFrame) : Keeps k s0 (postReply f s) := by
  unfold Machine.postReply
  split
  next hroom => exact h.joinInfo f hroom
  next => exact h.countReqDrop

theorem Keeps.reply (h : Keeps k s0 s) (q : Sender) (code : Nat) (st : Status) (body : List Byte) :
    Keeps k s0 (reply q code st body s) := h.postReply _

/-! ### The control queue (R12 to R16) -/

/-- A queue that loses its front, or any frames, stays bounded. -/
theorem queueSound_of_sublist {q q' : List ControlFrame} (hsub : q'.Sublist q) (h : queueSound q) : queueSound q' := by
  obtain ⟨h1, h2, h3, h4⟩ := h
  refine ⟨h1.sublist (hsub.filterMap _), ((hsub.filterMap _).length_le).trans h2, fun st => ?_,
    ((hsub.filter _).length_le).trans h4⟩
  exact ⟨((hsub.filter _).length_le).trans (h3 st).1, ((hsub.filter _).length_le).trans (h3 st).2⟩

/-- A bounded queue holds at most 12 frames. -/
theorem length_le_of_queueSound {q : List ControlFrame} (h : queueSound q) : q.length ≤ 12 := by
  obtain ⟨-, h2, h3, h4⟩ := h
  have key : ∀ l : List ControlFrame, l.length ≤ (l.filterMap driveNodeOf).length +
      (l.filter (isPermitOf .a)).length + (l.filter (isPermitOf .b)).length + (l.filter (isStrokeOf .a)).length +
      (l.filter (isStrokeOf .b)).length + (l.filter isWeigh).length := by
    intro l
    induction l with
    | nil => simp
    | cons f fs ih =>
      have step : 1 ≤ ((driveNodeOf f).toList.length) + (isPermitOf .a f).toNat + (isPermitOf .b f).toNat +
          (isStrokeOf .a f).toNat + (isStrokeOf .b f).toNat + (isWeigh f).toNat := by
        cases f with
        | drive n es => exact Nat.le_add_right 1 _
        | permit st d c o r => cases st <;> exact Nat.le_refl 1
        | stroke st d o => cases st <;> exact Nat.le_refl 1
        | weigh d n => exact Nat.le_refl 1
      have count : ∀ p : ControlFrame → Bool,
          ((f :: fs).filter p).length = (p f).toNat + (fs.filter p).length := by
        intro p
        rw [List.filter_cons]
        cases p f <;> simp [Nat.add_comm]
      have drives : ((f :: fs).filterMap driveNodeOf).length =
          (driveNodeOf f).toList.length + (fs.filterMap driveNodeOf).length := by
        rw [List.filterMap_cons]
        cases driveNodeOf f <;> simp [Nat.add_comm]
      rw [count, count, count, count, count, drives, List.length_cons]
      omega
  have hq := key q
  have ha := h3 .a
  have hb := h3 .b
  omega

/-- A list with one element changed in place or one added at the back holds at most one more element of any kind, and none
more of a kind that the new element is not. -/
theorem filter_replaceOrJoin (p r : ControlFrame → Bool) (new : ControlFrame) (hr : r new = false)
    (hpr : ∀ f, p f = true → r f = false) (q : List ControlFrame) :
    (replaceOrJoin p new q).filter r = q.filter r := by
  induction q with
  | nil => simp [replaceOrJoin, hr]
  | cons f fs ih =>
    unfold replaceOrJoin
    split
    next hp => simp [hr, hpr f hp]
    next => simp [List.filter_cons, ih]

theorem filterMap_replaceOrJoin (p : ControlFrame → Bool) (new : ControlFrame) (hnew : driveNodeOf new = none)
    (hp : ∀ f, p f = true → driveNodeOf f = none) (q : List ControlFrame) :
    (replaceOrJoin p new q).filterMap driveNodeOf = q.filterMap driveNodeOf := by
  induction q with
  | nil => simp [replaceOrJoin, hnew]
  | cons f fs ih =>
    unfold replaceOrJoin
    split
    next hf => simp [hnew, hp f hf]
    next => simp [List.filterMap_cons, ih]

/-- A frame that takes the place of the one of its kind leaves at most one. -/
theorem length_filter_replaceOrJoin (p : ControlFrame → Bool) (new : ControlFrame) (q : List ControlFrame)
    (h : (q.filter p).length ≤ 1) : ((replaceOrJoin p new q).filter p).length ≤ 1 := by
  induction q with
  | nil => exact (List.length_filter_le _ _).trans (by simp [replaceOrJoin])
  | cons f fs ih =>
    unfold replaceOrJoin
    by_cases hf : p f = true
    · rw [if_pos hf]
      rw [List.filter_cons, if_pos hf, List.length_cons] at h
      rw [List.filter_cons]
      split
      · exact h
      · exact (Nat.le_succ _).trans h
    · simp only [hf, List.filter_cons, if_false, Bool.false_eq_true] at h ⊢
      exact ih h

theorem queueSound_permit (st : Station) (d : Nat) (c o : Bool) (r : Nat) {q : List ControlFrame} (h : queueSound q) :
    queueSound (replaceOrJoin (isPermitOf st) (.permit st d c o r) q) := by
  obtain ⟨h1, h2, h3, h4⟩ := h
  have drives : (replaceOrJoin (isPermitOf st) (.permit st d c o r) q).filterMap driveNodeOf =
      q.filterMap driveNodeOf := filterMap_replaceOrJoin _ _ rfl (fun f hf => by cases f <;> simp_all [isPermitOf, driveNodeOf]) q
  have weighs : (replaceOrJoin (isPermitOf st) (.permit st d c o r) q).filter isWeigh = q.filter isWeigh :=
    filter_replaceOrJoin _ _ _ rfl (fun f hf => by cases f <;> simp_all [isPermitOf, isWeigh]) q
  refine ⟨drives ▸ h1, drives ▸ h2, fun st' => ⟨?_, ?_⟩, weighs ▸ h4⟩
  · by_cases e : st = st'
    · exact e ▸ length_filter_replaceOrJoin _ _ _ (h3 st).1
    · rw [filter_replaceOrJoin _ _ _ (by simp [isPermitOf, e])
        (fun f hf => by cases f <;> simp_all [isPermitOf])]
      exact (h3 st').1
  · rw [filter_replaceOrJoin _ _ _ rfl (fun f hf => by cases f <;> simp_all [isPermitOf, isStrokeOf])]
    exact (h3 st').2

theorem queueSound_stroke (st : Station) (d : Nat) (o : StrokeOrder) {q : List ControlFrame} (h : queueSound q) :
    queueSound (replaceOrJoin (isStrokeOf st) (.stroke st d o) q) := by
  obtain ⟨h1, h2, h3, h4⟩ := h
  have drives : (replaceOrJoin (isStrokeOf st) (.stroke st d o) q).filterMap driveNodeOf =
      q.filterMap driveNodeOf := filterMap_replaceOrJoin _ _ rfl (fun f hf => by cases f <;> simp_all [isStrokeOf, driveNodeOf]) q
  have weighs : (replaceOrJoin (isStrokeOf st) (.stroke st d o) q).filter isWeigh = q.filter isWeigh :=
    filter_replaceOrJoin _ _ _ rfl (fun f hf => by cases f <;> simp_all [isStrokeOf, isWeigh]) q
  refine ⟨drives ▸ h1, drives ▸ h2, fun st' => ⟨?_, ?_⟩, weighs ▸ h4⟩
  · rw [filter_replaceOrJoin _ _ _ rfl (fun f hf => by cases f <;> simp_all [isPermitOf, isStrokeOf])]
    exact (h3 st').1
  · by_cases e : st = st'
    · exact e ▸ length_filter_replaceOrJoin _ _ _ (h3 st).2
    · rw [filter_replaceOrJoin _ _ _ (by simp [isStrokeOf, e])
        (fun f hf => by cases f <;> simp_all [isStrokeOf])]
      exact (h3 st').2

theorem dropFirstWeigh_sublist (q : List ControlFrame) : (dropFirstWeigh q).Sublist q := by
  induction q with
  | nil => exact List.Sublist.refl _
  | cons f fs ih =>
    unfold dropFirstWeigh
    split
    · exact List.sublist_cons_self f fs
    · exact ih.cons_cons f

theorem queueSound_weigh (d : Nat) (n : WeighNotice) {q : List ControlFrame} (h : queueSound q) :
    queueSound (putWeigh (.weigh d n) q) := by
  have kept : ∃ q', q'.Sublist q ∧ putWeigh (.weigh d n) q = q' ++ [.weigh d n] := by
    unfold putWeigh
    split
    · exact ⟨q, List.Sublist.refl _, rfl⟩
    · exact ⟨_, dropFirstWeigh_sublist q, rfl⟩
  have count := weighCount_putWeigh_le h.2.2.2 (.weigh d n)
  obtain ⟨q', hsub, he⟩ := kept
  obtain ⟨h1, h2, h3, -⟩ := queueSound_of_sublist hsub h
  rw [he] at count ⊢
  have drives : (q' ++ [ControlFrame.weigh d n]).filterMap driveNodeOf = q'.filterMap driveNodeOf := by
    rw [List.filterMap_append]
    exact List.append_nil _
  refine ⟨drives ▸ h1, drives ▸ h2, fun st => ?_, count⟩
  · simpa [isPermitOf, isStrokeOf] using h3 st

/-! ### DRIVE frames (R13, R14, R46) -/

/-- A duty put into a DRIVE frame of the node; any other frame is unchanged (R13). -/
def dutyInto (node channel duty : Nat) : ControlFrame → ControlFrame
  | .drive n es => if n = node then .drive n (putDuty channel duty es) else .drive n es
  | f => f

/-- With a frame held for the node the duty goes into it. -/
theorem putDrive_of_held {nodes : List Nat} {node channel duty : Nat} {q : List ControlFrame}
    (h : node ∈ q.filterMap driveNodeOf) : putDrive nodes node channel duty q = q.map (dutyInto node channel duty) := by
  have hany : q.any (fun f => decide (driveNodeOf f = some node)) = true := by
    simpa [List.mem_filterMap] using h
  unfold putDrive
  rw [if_pos hany]
  congr 1
  funext f
  cases f <;> rfl

/-- With none a new frame joins the back, for which room is made where six are held (R14). -/
theorem putDrive_of_absent {nodes : List Nat} {node channel duty : Nat} {q : List ControlFrame}
    (h : node ∉ q.filterMap driveNodeOf) : putDrive nodes node channel duty q =
      (if (q.filterMap driveNodeOf).length < 6 then q else dropStrayDrive nodes q) ++
        [.drive node [{ channel := channel, duty := duty }]] := by
  have hany : ¬ q.any (fun f => decide (driveNodeOf f = some node)) = true := by
    simpa [List.mem_filterMap] using h
  unfold putDrive
  rw [if_neg hany]

theorem filterMap_map_dutyInto (node channel duty : Nat) (q : List ControlFrame) :
    (q.map (dutyInto node channel duty)).filterMap driveNodeOf = q.filterMap driveNodeOf := by
  rw [List.filterMap_map]
  congr 1
  funext f
  cases f with
  | drive n es => simp only [Function.comp, dutyInto]; split <;> rfl
  | _ => rfl

theorem filter_map_dutyInto (p : ControlFrame → Bool) (hp : ∀ n es, p (.drive n es) = false) (node channel duty : Nat)
    (q : List ControlFrame) : (q.map (dutyInto node channel duty)).filter p = q.filter p := by
  induction q with
  | nil => rfl
  | cons f fs ih =>
    rw [List.map_cons, List.filter_cons, List.filter_cons, ih]
    cases f with
    | drive n es => simp only [dutyInto]; split <;> simp [hp]
    | _ => rfl

theorem dropStrayDrive_sublist (nodes : List Nat) (q : List ControlFrame) : (dropStrayDrive nodes q).Sublist q := by
  induction q with
  | nil => exact List.Sublist.refl _
  | cons f fs ih =>
    cases f with
    | drive n es =>
      simp only [dropStrayDrive]
      split
      · exact ih.cons_cons _
      · exact List.sublist_cons_self _ _
    | _ => exact ih.cons_cons _

/-- Where some DRIVE frame names none of the nodes, one DRIVE frame is removed. -/
theorem length_dropStrayDrive (nodes : List Nat) (q : List ControlFrame)
    (h : ∃ n ∈ q.filterMap driveNodeOf, n ∉ nodes) :
    ((dropStrayDrive nodes q).filterMap driveNodeOf).length + 1 = (q.filterMap driveNodeOf).length := by
  induction q with
  | nil => simp at h
  | cons f fs ih =>
    obtain ⟨m, hm, hn⟩ := h
    cases f with
    | drive n es =>
      simp only [dropStrayDrive]
      split
      next hin =>
        have hm' : m ∈ fs.filterMap driveNodeOf := by
          simp only [driveNodeOf, List.filterMap_cons, List.mem_cons] at hm
          rcases hm with rfl | hm
          · exact absurd hin hn
          · exact hm
        simpa [driveNodeOf] using ih ⟨m, hm', hn⟩
      next => simp [driveNodeOf]
    | _ => exact ih ⟨m, hm, hn⟩

/-- A duty for a node of an enabled zone leaves the queue bounded, since enabled zones name at most six nodes (R46). -/
theorem queueSound_drive {nodes : List Nat} {node channel duty : Nat} {q : List ControlFrame}
    (hnode : node ∈ nodes) (hsix : nodes.dedup.length ≤ 6) (h : queueSound q) :
    queueSound (putDrive nodes node channel duty q) := by
  by_cases hheld : node ∈ q.filterMap driveNodeOf
  · obtain ⟨h1, h2, h3, h4⟩ := h
    rw [putDrive_of_held hheld]
    refine ⟨?_, ?_, fun st => ⟨?_, ?_⟩, ?_⟩
    · rw [filterMap_map_dutyInto]; exact h1
    · rw [filterMap_map_dutyInto]; exact h2
    · rw [filter_map_dutyInto _ (fun _ _ => rfl)]; exact (h3 st).1
    · rw [filter_map_dutyInto _ (fun _ _ => rfl)]; exact (h3 st).2
    · rw [filter_map_dutyInto _ (fun _ _ => rfl)]; exact h4
  · rw [putDrive_of_absent hheld]
    have room : ∃ q', q'.Sublist q ∧ (q'.filterMap driveNodeOf).length ≤ 5 ∧
        (if (q.filterMap driveNodeOf).length < 6 then q else dropStrayDrive nodes q) = q' := by
      obtain ⟨h1, h2, -, -⟩ := h
      split
      next hlt => exact ⟨q, List.Sublist.refl _, Nat.lt_succ_iff.mp hlt, rfl⟩
      next hge =>
        refine ⟨_, dropStrayDrive_sublist nodes q, ?_, rfl⟩
        have stray : ∃ n ∈ q.filterMap driveNodeOf, n ∉ nodes := by
          by_contra hall
          push Not at hall
          have hsub : node :: q.filterMap driveNodeOf ⊆ nodes.dedup := by
            intro n hn
            rw [List.mem_dedup]
            rcases List.mem_cons.mp hn with rfl | hn
            · exact hnode
            · exact hall n hn
          have hle := (List.subperm_of_subset (List.nodup_cons.mpr ⟨hheld, h1⟩) hsub).length_le
          simp only [List.length_cons] at hle
          have : 6 ≤ (q.filterMap driveNodeOf).length := Nat.not_lt.mp hge
          omega
        have := length_dropStrayDrive nodes q stray
        omega
    obtain ⟨q', hsub, hfive, he⟩ := room
    rw [he]
    have drives : (q' ++ [ControlFrame.drive node [{ channel := channel, duty := duty }]]).filterMap driveNodeOf =
        q'.filterMap driveNodeOf ++ [node] := List.filterMap_append
    obtain ⟨h1, -, h3, h4⟩ := queueSound_of_sublist hsub h
    refine ⟨?_, ?_, fun st => ?_, ?_⟩
    · have hnot : node ∉ q'.filterMap driveNodeOf := fun hm => hheld ((hsub.filterMap _).subset hm)
      rw [drives]
      exact List.nodup_append.mpr ⟨h1, List.nodup_singleton _, fun a ha b hb => by
        rw [List.mem_singleton.mp hb]; exact fun e => hnot (e ▸ ha)⟩
    · rw [drives, List.length_append]
      exact Nat.succ_le_succ hfive
    · simpa [isPermitOf, isStrokeOf] using h3 st
    · simpa [isWeigh] using h4

theorem mem_enabledNodes (s : Block) (z : Fin 32) (h : (entryOf s z).enabled = true) :
    (entryOf s z).driveNode ∈ enabledNodes s :=
  List.mem_map.mpr ⟨z, by simp [allZones, h], rfl⟩

theorem enabledNodes_le (s : Block) (h : zoneTableOk s.tab.zones = true) : (enabledNodes s).dedup.length ≤ 6 := by
  unfold zoneTableOk at h
  simp only [Bool.and_eq_true, decide_eq_true_eq, List.filter_map, List.map_map] at h
  exact h.1

theorem Keeps.postDuty (h : Keeps k s0 s) (z : Fin 32) (hz : controlSound s0 → (entryOf s z).enabled = true) :
    Keeps k s0 (postDuty z s) :=
  h.postControl _ fun h0 hq =>
    queueSound_drive (mem_enabledNodes s z (hz h0))
      (enabledNodes_le s ((controlSound_iff s).mp (h.control h0)).2.1) hq

theorem Keeps.postPermit (h : Keeps k s0 s) (st : Station) : Keeps k s0 (postPermit st s) :=
  Keeps.modStc (h.postControl _ fun _ => queueSound_permit _ _ _ _ _) st
    (fun c => { c with refresh := startTimer (s.tab.stations.get st).refresh })

theorem Keeps.postStroke (h : Keeps k s0 s) (st : Station) (o : StrokeOrder) : Keeps k s0 (postStroke st o s) :=
  h.postControl _ fun _ => queueSound_stroke _ _ _

theorem Keeps.postWeigh (h : Keeps k s0 s) (n : WeighNotice) : Keeps k s0 (postWeigh n s) :=
  h.postControl _ fun _ => queueSound_weigh _ _

/-! ### The arbiter (R11) -/

/-- A decision takes one frame from the front of a queue, or none. -/
theorem arbitrate_queues (s : Block) :
    (arbitrate s).rpu.forwardQ.Sublist s.rpu.forwardQ ∧ (arbitrate s).rpu.controlQ.Sublist s.rpu.controlQ ∧
      (arbitrate s).rpu.infoQ.Sublist s.rpu.infoQ ∧
      ((arbitrate s).rpu.forwardCount ≤ 4 ∨ (arbitrate s).rpu.forwardCount = s.rpu.forwardCount) := by
  unfold arbitrate
  split
  · simp only [decideOut]
    split
    next f fs hf =>
      have hq : s.rpu.forwardQ = f :: fs := by
        revert hf
        split
        · exact id
        · intro hf; cases hf
      exact ⟨hq ▸ List.sublist_cons_self _ _, .refl _, .refl _, .inl (Nat.min_le_right _ _)⟩
    next c cs i _ hc => exact ⟨.refl _, hc ▸ List.sublist_cons_self _ _, .refl _, .inl (Nat.zero_le _)⟩
    next i rest _ hc hi => exact ⟨.refl _, hc ▸ .refl _, hi ▸ List.sublist_cons_self _ _, .inl (Nat.zero_le _)⟩
    next => exact ⟨.refl _, .refl _, .refl _, .inr rfl⟩
  · exact ⟨.refl _, .refl _, .refl _, .inr rfl⟩

theorem Keeps.arbitrate (h : Keeps k s0 s) : Keeps k s0 (arbitrate s) := by
  obtain ⟨hf, hc, hi, hn⟩ := arbitrate_queues s
  refine ⟨by simpa using h.links, fun h0 => ?_, by simpa using h.slots, fun h0 => ?_, fun h0 => ?_⟩
  · obtain ⟨h1, h2, h3, h4, h5⟩ := h.queues h0
    refine ⟨hf.length_le.trans h1, hi.length_le.trans h2, by simpa using h3, ?_, by simpa using h5⟩
    rcases hn with hn | hn
    · exact hn
    · exact hn ▸ h4
  · simpa only [cycleSound_iff, stcOf, dmsOf, arbitrate_stc, arbitrate_dms] using h.cycles h0
  · obtain ⟨hq, ht, hz⟩ := (controlSound_iff s).mp (h.control h0)
    exact (controlSound_iff _).mpr ⟨queueSound_of_sublist hc hq, by simpa using ht, by simpa using hz⟩

end Sys2Proof.Machine
end

section
/-! PROOFS. What every command keeps: the History Store, the Scale Unit and the Station Controller. -/

namespace Sys2Proof.Machine

open Sys2Proof

/-! ### A station after the updates that pass it by -/

@[simp] theorem stcOf_setLevel (c : Cond) (on : Bool) (s : Block) (st : Station) :
    stcOf (setLevel c on s) st = stcOf s st := by simp [stcOf]

@[simp] theorem dmsOf_setLevel (c : Cond) (on : Bool) (s : Block) (st : Station) :
    dmsOf (setLevel c on s) st = dmsOf s st := by simp [dmsOf]

@[simp] theorem stcOf_modHst (f : Hst → Hst) (s : Block) (st : Station) : stcOf (modHst f s) st = stcOf s st := rfl

@[simp] theorem stcOf_setNoCycle (st : Station) (c : NoCycle) (s : Block) :
    stcOf (setNoCycle st c s) st = { stcOf s st with noCycle := c } := by simp [setNoCycle]

/-! ### What the scale's operations leave as it was -/

/-- `t` differs from `s` at most in the control queue, the Scale Unit and the records held. -/
def ScaleOnly (s t : Block) : Prop :=
  t = { s with rpu := { s.rpu with controlQ := t.rpu.controlQ }, scu := t.scu, hst := { s.hst with slots := t.hst.slots } }

theorem ScaleOnly.refl (s : Block) : ScaleOnly s s := rfl

theorem ScaleOnly.trans {a b c : Block} (h : ScaleOnly a b) (g : ScaleOnly b c) : ScaleOnly a c := by
  unfold ScaleOnly at *
  rw [g, h]

section ScaleOnly

variable {s t : Block} (h : ScaleOnly s t)
include h

theorem ScaleOnly.stc : t.stc = s.stc := by rw [h]

theorem ScaleOnly.dms : t.dms = s.dms := by rw [h]

theorem ScaleOnly.tab : t.tab = s.tab := by rw [h]

theorem ScaleOnly.stcOf (st : Station) : stcOf t st = stcOf s st := congrArg (·.get st) h.stc

theorem ScaleOnly.dmsOf (st : Station) : dmsOf t st = dmsOf s st := congrArg (·.get st) h.dms

end ScaleOnly

theorem scaleOnly_modScu (f : Scu → Scu) (s : Block) : ScaleOnly s (modScu f s) := rfl

theorem scaleOnly_modSession (f : Session → Session) (s : Block) : ScaleOnly s (modSession f s) := rfl

theorem scaleOnly_postWeigh (n : WeighNotice) (s : Block) : ScaleOnly s (postWeigh n s) := by
  rw [postWeigh_spec]; rfl

theorem scaleOnly_notify (u : Session) (n : Notice) (a : Nat) (c : WeighCause) (w : Int) (s : Block) :
    ScaleOnly s (notify u n a c w s) := scaleOnly_postWeigh _ s

theorem scaleOnly_postDiscard (st : Station) (s : Block) : ScaleOnly s (postDiscard st s) := by
  unfold postDiscard
  split
  · exact scaleOnly_postWeigh _ s
  · rfl

theorem scaleOnly_modOpenRecord (st : Station) (f : Record → Record) (s : Block) :
    ScaleOnly s (modOpenRecord st f s) := by
  rw [modOpenRecord_spec]; rfl

theorem scaleOnly_evalLoading (s : Block) : ScaleOnly s (evalLoading s) := by
  have near : ScaleOnly s (nearTest s) := by
    unfold nearTest
    split
    · split
      · exact (scaleOnly_notify _ _ _ _ _ _).trans (scaleOnly_modSession _ _)
      · rfl
    · rfl
  refine near.trans ?_
  rw [evalLoading, dwellTest_eq]
  rfl

theorem scaleOnly_enterLoading (s : Block) : ScaleOnly s (enterLoading s) := by
  unfold enterLoading
  split
  · exact (((scaleOnly_modSession _ _).trans (scaleOnly_modScu _ _)).trans (scaleOnly_modOpenRecord _ _ _)).trans
      (scaleOnly_evalLoading _)
  · rfl

theorem scaleOnly_evalClearing (s : Block) : ScaleOnly s (evalClearing s) := by
  unfold evalClearing
  split
  · split
    · exact scaleOnly_enterLoading s
    · split
      · exact (scaleOnly_notify _ _ _ _ _ _).trans (scaleOnly_modSession _ _)
      · rfl
  · rfl

theorem scaleOnly_grantOldest (s : Block) : ScaleOnly s (grantOldest s) := by
  unfold grantOldest
  split
  · simp only
    split
    · exact ((scaleOnly_modScu _ _).trans (scaleOnly_modScu _ _)).trans (scaleOnly_evalClearing _)
    · rfl
  · rfl

theorem scaleOnly_cutSession (u : Session) (s : Block) : ScaleOnly s (cutSession u s) := by
  unfold cutSession
  simp only
  split
  all_goals first
    | exact (scaleOnly_modScu _ s).trans (scaleOnly_modOpenRecord _ _ _)
    | exact scaleOnly_modScu _ s

theorem scaleOnly_leaveScale (st : Station) (s : Block) : ScaleOnly s (leaveScale st s) := by
  unfold leaveScale
  split
  · split
    · exact (scaleOnly_cutSession _ _).trans (scaleOnly_grantOldest _)
    · rfl
  · rfl

variable {k : Phase} {s0 s : Block}

/-! ### The History Store (chapter 9) -/

theorem Keeps.judgeFull (h : Keeps k s0 s) : Keeps k s0 (judgeFull s) := h.setLevel _ _

theorem Keeps.judgeHigh (h : Keeps k s0 s) : Keeps k s0 (judgeHigh s) := h.setLevel _ _

theorem Keeps.openRecord (h : Keeps k s0 s) (st : Station) (idx : Fin 16) (rev : Nat) (i : Fin 48) (n : Nat)
    (hfree : vget s.hst.slots i = .free) : Keeps k s0 (openRecord st idx rev i n s) := by
  refine Keeps.judgeFull (h.modHst _ fun _ _ j => ?_)
  simp only [vget_vset]
  split
  next e => exact e ▸ hfree ▸ .inr (.inr ⟨_, rfl⟩)
  next => exact .refl _ _

theorem Keeps.closeRecord (h : Keeps .work s0 s) (n : Nat) : Keeps .work s0 (closeRecord n s) := by
  refine Keeps.judgeHigh (h.modHst _ fun _ _ i => ?_)
  simp only [vget_vmap]
  unfold closeSlot
  split
  next r hr =>
    rw [hr]
    split
    · exact ⟨{ r with closedAt := s.hst.lineTime, verdict := verdictOf r.flags }, ⟨rfl, rfl, BitVec.and_self⟩,
        .inr ⟨rfl, rfl⟩⟩
    · exact .refl _ _
  next => exact .refl _ _

theorem Keeps.endCollection (h : Keeps k s0 s) : Keeps k s0 (endCollection s) := by
  unfold Machine.endCollection
  split
  · split
    · exact Keeps.reply (h.quiet _) _ _ _ _
    · exact h
  · exact h

theorem Keeps.placePart (h : Keeps .collect s0 s) (n : Nat) (rest : List Nat) (c : Collection) (r : Record)
    (hroom : s.rpu.infoQ.length < 16) : Keeps .collect s0 (placePart n rest c r s) := by
  refine Keeps.judgeHigh ((h.joinInfo _ hroom).modHst _ fun _ _ i => ?_)
  simp only [vget_vmap, joinInfo_hst]
  unfold sendSlot
  split
  next r hr =>
    rw [hr]
    split
    · exact .inr ⟨rfl, rfl⟩
    · exact .refl _ _
  next => exact .refl _ _

theorem infoRoom_of_partMayJoin (h : partMayJoin s = true) : s.rpu.infoQ.length < 16 := by
  simp only [partMayJoin, Bool.and_eq_true, decide_eq_true_eq] at h
  exact h.1.trans (by decide)

theorem Keeps.offerParts (fuel : Nat) (h : Keeps .collect s0 s) : Keeps .collect s0 (offerParts fuel s) := by
  induction fuel generalizing s with
  | zero => exact h
  | succ n ih =>
    unfold Machine.offerParts
    split
    · exact h
    · split
      · exact h
      · split
        next hmay =>
          split
          · exact ih (h.placePart _ _ _ _ (infoRoom_of_partMayJoin hmay))
          · exact ih (h.quiet _)
        next => exact h

theorem Keeps.serveCollection (h : Keeps .collect s0 s) : Keeps .collect s0 (serveCollection s) := by
  unfold Machine.serveCollection
  split
  · exact (h.offerParts _).endCollection
  · exact h

theorem Keeps.freeSent {n : Nat} (h : Keeps (.release n) s0 s) : Keeps (.release n) s0 (Machine.modHst (Machine.freeSent n) s) := by
  refine h.modHst _ fun _ _ i => ?_
  simp only [Machine.freeSent, vget_vmap]
  split
  next hr =>
    simp only [released, Bool.and_eq_true, decide_eq_true_eq] at hr
    obtain ⟨hsent, hle⟩ := hr
    unfold isHolding at hsent
    split at hsent
    next g r he =>
      rw [decide_eq_true_eq] at hsent
      rw [he] at hle ⊢
      exact hsent ▸ .inr ⟨n, rfl, hle, .inl rfl⟩
    next => cases hsent
  next => exact .refl _ _

/-! ### The Scale Unit (chapter 7) -/

theorem Keeps.modScu (h : Keeps k s0 s) (f : Scu → Scu) : Keeps k s0 (modScu f s) := h.quiet _

theorem Keeps.modSession (h : Keeps k s0 s) (f : Session → Session) : Keeps k s0 (modSession f s) := h.modScu _

theorem Keeps.judgeOverload (h : Keeps k s0 s) : Keeps k s0 (judgeOverload s) := (h.modScu _).setLevel _ _

theorem Keeps.notify (h : Keeps k s0 s) (u : Session) (n : Notice) (a : Nat) (c : WeighCause) (w : Int) :
    Keeps k s0 (notify u n a c w s) := h.postWeigh _

theorem Keeps.postDiscard (h : Keeps k s0 s) (st : Station) : Keeps k s0 (postDiscard st s) := by
  unfold Machine.postDiscard
  split
  · exact h.postWeigh _
  · exact h

theorem Keeps.evalLoading (h : Keeps k s0 s) : Keeps k s0 (evalLoading s) := by
  have near : Keeps k s0 (nearTest s) := by
    unfold nearTest
    split
    · split
      · exact (h.notify _ _ _ _ _).modSession _
      · exact h
    · exact h
  rw [Machine.evalLoading, dwellTest_eq]
  exact near.quiet _

theorem Keeps.evalIfLoading (h : Keeps k s0 s) : Keeps k s0 (evalIfLoading s) := by
  unfold Machine.evalIfLoading
  split
  · split
    · exact h.evalLoading
    · exact h
  · exact h

theorem Keeps.enterLoading (h : Keeps k s0 s) : Keeps k s0 (enterLoading s) := by
  unfold Machine.enterLoading
  split
  · exact (((h.modSession _).modScu _).modOpenRecord _ _).evalLoading
  · exact h

theorem Keeps.evalClearing (h : Keeps k s0 s) : Keeps k s0 (evalClearing s) := by
  unfold Machine.evalClearing
  split
  · split
    · exact h.enterLoading
    · split
      · exact (h.notify _ _ _ _ _).modSession _
      · exact h
  · exact h

theorem Keeps.grantOldest (h : Keeps k s0 s) : Keeps k s0 (grantOldest s) := by
  unfold Machine.grantOldest
  split
  · simp only
    split
    · exact ((h.modScu _).modScu _).evalClearing
    · exact h.modScu _
  · exact h

theorem Keeps.postClaim (h : Keeps k s0 s) (st : Station) : Keeps k s0 (postClaim st s) := (h.modScu _).grantOldest

theorem Keeps.endSession (h : Keeps k s0 s) : Keeps k s0 (endSession s) := h.modScu _

theorem Keeps.cutSession (h : Keeps k s0 s) (u : Session) : Keeps k s0 (cutSession u s) := by
  unfold Machine.cutSession
  simp only
  split
  all_goals first
    | exact h.endSession.modOpenRecord _ _
    | exact h.endSession

theorem Keeps.withdrawClaim (h : Keeps k s0 s) (st : Station) : Keeps k s0 (withdrawClaim st s) := h.modScu _

theorem Keeps.leaveScale (h : Keeps k s0 s) (st : Station) : Keeps k s0 (leaveScale st s) := by
  unfold Machine.leaveScale
  split
  · split
    · exact (h.cutSession _).grantOldest
    · exact h.withdrawClaim _
  · exact h.withdrawClaim _

theorem Keeps.dropAccepted (h : Keeps k s0 s) (st : Station) : Keeps k s0 (dropAccepted st s) := h.modScu _

theorem Keeps.rejectAttempt (h : Keeps k s0 s) (u : Session) (c : WeighCause) (w : Int) :
    Keeps k s0 (rejectAttempt u c w s).1 := by
  have rejected := (((h.modScu fun v => { v with dwell := none, loading := none }).notify u .rejected u.attempts c w).modOpenRecord
    u.owner (withChargeStatus .rejected 0)).latchCond .chargeRejected
  unfold Machine.rejectAttempt
  simp only
  split
  · exact rejected.endSession.grantOldest
  · exact rejected.modSession _

theorem recordKept_withAccepted (w : Int) (time : Option Stamp) (r : Record) : recordKept r (withAccepted w time r) := by
  unfold withAccepted
  cases time <;> exact ⟨rfl, rfl, BitVec.and_self⟩

theorem Keeps.acceptAttempt (h : Keeps k s0 s) (u : Session) (w : Int) : Keeps k s0 (acceptAttempt u w s) :=
  ((((h.modScu _).notify _ _ _ _ _).modOpenRecord _ _ (recordKept_withAccepted _ _)).modScu _).modSession _

theorem Keeps.captureAttempt (h : Keeps k s0 s) (u : Session) : Keeps k s0 (captureAttempt u s).1 := by
  unfold Machine.captureAttempt
  simp only
  split
  · exact h.rejectAttempt _ _ _
  · split
    · exact h.rejectAttempt _ _ _
    · exact h.acceptAttempt _ _

theorem Keeps.clearWindow (h : Keeps k s0 s) : Keeps k s0 (clearWindow s) := (h.modScu _).evalIfLoading

theorem Keeps.takeReading (h : Keeps k s0 s) (raw : Int) : Keeps k s0 (takeReading raw s) := by
  unfold Machine.takeReading
  exact (((h.modScu _).judgeOverload).modScu _).modScu _

/-! ### The Station Controller (chapter 4) -/

theorem Keeps.setNoCycle (h : Keeps k s0 s) (st : Station) (c : NoCycle) : Keeps k s0 (setNoCycle st c s) :=
  (h.modStc st fun x => { x with noCycle := c }).setLevel _ _

theorem Keeps.startSettle (h : Keeps k s0 s) (st : Station) : Keeps k s0 (startSettle st s) := by
  unfold Machine.startSettle
  simp only
  split
  · split
    · exact h.modStc _ _
    · exact h
  · exact h

/-- Outside a cycle a sound station has no permit and no cycle context, and its sequencer rests. -/
theorem stationSound_outside_iff {c : Stc} {d : Dms} (hc : isCycleState c.state = false) :
    stationSound c d ↔
      c.closeOk = false ∧ c.openOk = false ∧ c.cycle.isSome = false ∧ (d.state = .idle ∨ d.state = .done) := by
  unfold stationSound
  generalize c.state = x at hc ⊢
  cases x
  case off | standby | preheat | ready =>
    simp only [hc, reduceCtorEq, decide_false, Bool.false_and, or_false]
  all_goals cases hc

/-- A station that goes from one state outside a cycle to another stays sound. -/
theorem stationSound_outside {c : Stc} {d : Dms} {x : StationState} (hc : isCycleState c.state = false)
    (hx : isCycleState x = false) (h : stationSound c d) : stationSound { c with state := x } d :=
  (stationSound_outside_iff hx).mpr ((stationSound_outside_iff hc).mp h)

theorem Keeps.readyToPreheat (h : Keeps k s0 s) (st : Station) : Keeps k s0 (readyToPreheat st s) := by
  unfold Machine.readyToPreheat
  split
  next hr =>
    refine Keeps.setNoCycle (h.modStc_of st _ fun _ hs => ?_) st _
    exact stationSound_outside (by rw [show (stcOf s st).state = .ready from hr]; rfl) rfl hs
  next => exact h

theorem Keeps.clearHeat (h : Keeps k s0 s) (st : Station) : Keeps k s0 (clearHeat st s) :=
  Keeps.readyToPreheat (h.modStc_of st _ fun _ ⟨_, h2, h3, h4⟩ => ⟨by simp, h2, h3, h4⟩) st

theorem Keeps.judgeAllowance (h : Keeps k s0 s) (st : Station) : Keeps k s0 (judgeAllowance st s) := by
  unfold Machine.judgeAllowance
  split
  · split
    · exact h.setFlag _ _
    · exact h
  · exact h

theorem Keeps.judgeGate (h : Keeps k s0 s) (st : Station) : Keeps k s0 (judgeGate st s) := by
  unfold Machine.judgeGate
  split
  · exact (h.modCycle _ _).judgeAllowance _
  · exact h

theorem Keeps.zoneReport (h : Keeps k s0 s) (st : Station) (z : Fin 32) (b : Bool) : Keeps k s0 (zoneReport st z b s) := by
  have noted : Keeps k s0 (Machine.modStc st (fun c => { c with inBand := vset c.inBand z b }) s) := h.modStc _ _
  unfold Machine.zoneReport
  simp only
  split
  · exact (noted.startSettle _).judgeGate _
  · exact (noted.clearHeat _).judgeGate _

theorem Keeps.openCycle (h : Keeps k s0 s) (st : Station) (idx : Fin 16) (r : Recipe) (steps : List StepCopy)
    (i : Fin 48) (n : Nat) (hr : (stcOf s st).state = .ready) (hfree : vget s.hst.slots i = .free) :
    Keeps k s0 (openCycle st idx r steps i n s) := by
  have opened := (h.setNoCycle st .none).openRecord st idx r.revision i n (by rw [setNoCycle_spec]; exact hfree)
  refine Keeps.postClaim (opened.modStc_of st _ fun _ hs => ?_) st
  have hstc : stcOf (Machine.openRecord st idx r.revision i n (Machine.setNoCycle st .none s)) st =
      { stcOf s st with noCycle := .none } := by
    unfold Machine.openRecord Machine.judgeFull
    simp
  rw [hstc] at hs ⊢
  obtain ⟨h1, h2, -, h4⟩ := hs
  simp only [hr, reduceCtorEq, decide_false, Bool.false_and, or_false] at h1 h2 h4
  exact ⟨h1, h2, rfl, h4.elim .inl fun h => .inr (.inl h)⟩

theorem availableSlot_free {i : Fin 48} (h : availableSlot s.hst = some i) : vget s.hst.slots i = .free := by
  have found : isFree (vget s.hst.slots i) = true := by
    unfold availableSlot at h
    split at h
    · split at h
      · exact List.find?_some (p := fun i => isFree (vget s.hst.slots i)) h
      · cases h
    · exact List.find?_some (p := fun i => isFree (vget s.hst.slots i)) h
  revert found
  cases vget s.hst.slots i with
  | free => exact fun _ => rfl
  | held g r => exact fun hf => by cases hf

theorem Keeps.cycleOpenTest (h : Keeps k s0 s) (st : Station) : Keeps k s0 (cycleOpenTest st s) := by
  unfold Machine.cycleOpenTest
  simp only
  split
  next hr =>
    simp only [Bool.and_eq_true, decide_eq_true_eq] at hr
    split
    · exact h.setNoCycle _ _
    · exact h.setNoCycle _ _
    · exact h.setNoCycle _ _
    next hslot _ _ =>
      split
      · exact h.openCycle _ _ _ _ _ _ hr.1 (availableSlot_free hslot)
      · exact h.setNoCycle _ _
  next => exact h

theorem Keeps.testStations (h : Keeps k s0 s) : Keeps k s0 (testStations s) := by
  unfold Machine.testStations
  split
  · exact ((h.quiet { s with choices := s.choices + 1 }).cycleOpenTest _).cycleOpenTest _
  · exact (h.cycleOpenTest _).cycleOpenTest _

theorem Keeps.settleDone (h : Keeps k s0 s) (st : Station) : Keeps k s0 (settleDone st s) := by
  have done : Keeps k s0 (Machine.modStc st (fun c =>
      { c with settle := none, heatReady := true, closeOk := decide (c.state = .pressLoad) || c.closeOk }) s) := by
    refine h.modStc_of st _ fun _ ⟨h1, h2, h3, h4⟩ => ⟨?_, h2, h3, h4⟩
    rw [h1]
    cases decide ((stcOf s st).state = .pressLoad) <;> rfl
  unfold Machine.settleDone
  simp only
  split
  next hp =>
    refine Keeps.cycleOpenTest (done.modStc_of st _ fun _ hs => ?_) st
    exact stationSound_outside (by rw [stcOf_modStc_self]; rw [show (stcOf s st).state = .preheat from hp]; rfl) rfl hs
  next => exact done

theorem Keeps.writeWait (h : Keeps k s0 s) (st : Station) : Keeps k s0 (writeWait st s) := by
  unfold Machine.writeWait
  split
  · split
    · exact h.modOpenRecord _ _
    · exact h
  · exact h

theorem Keeps.stopWait (h : Keeps k s0 s) (st : Station) : Keeps k s0 (stopWait st s) := by
  unfold Machine.stopWait
  split
  · split
    · simp only
      split
      · exact (((h.modCycle _ _).modOpenRecord _ _).setFlag _ _).latchCond _
      · exact (h.modCycle _ _).modOpenRecord _ _
    · exact h
  · exact h

theorem closeRecord_stc (n : Nat) (s : Block) : (closeRecord n s).stc = s.stc := by
  simp [closeRecord, Machine.judgeHigh]

theorem closeRecord_dms (n : Nat) (s : Block) : (closeRecord n s).dms = s.dms := by
  simp [closeRecord, Machine.judgeHigh]

theorem scaleOnly_writeWait (st : Station) (s : Block) : ScaleOnly s (writeWait st s) := by
  unfold writeWait
  split
  · split
    · exact scaleOnly_modOpenRecord _ _ _
    · rfl
  · rfl

/-- A station whose sequencer rests closes its cycle. -/
theorem Keeps.closeCycle (h : Keeps .work s0 s) (st : Station)
    (hd : cycleSound s0 → (dmsOf s st).state = .idle ∨ (dmsOf s st).state = .done) : Keeps .work s0 (closeCycle st s) := by
  unfold Machine.closeCycle
  split
  next c hc =>
    have closed := ((h.writeWait st).closeRecord c.record).latchCond (.cycleClosed st)
    simp only
    generalize hs1 : Machine.latchCond (.cycleClosed st) (Machine.closeRecord c.record (Machine.writeWait st s)) = s1 at *
    have hdms : dmsOf s1 st = dmsOf s st := by
      rw [← hs1, ← (scaleOnly_writeWait st s).dmsOf st]
      exact congrArg (·.get st) (closeRecord_dms _ _)
    have outside : ∀ x, isCycleState x = false → Keeps .work s0 (setState st x (Machine.dropAccepted st
        (Machine.modStc st (fun c => { c with cycle := none, closeOk := false, openOk := false }) s1))) := by
      intro x hx
      have e : setState st x (Machine.dropAccepted st
          (Machine.modStc st (fun c => { c with cycle := none, closeOk := false, openOk := false }) s1)) =
          Machine.dropAccepted st (Machine.modStc st (fun c =>
            { c with cycle := none, closeOk := false, openOk := false, state := x }) s1) := by cases st <;> rfl
      rw [e]
      refine Keeps.dropAccepted (closed.modStc_of st _ fun h0 _ => ?_) st
      refine ⟨?_, ?_, hx.symm, ?_⟩
      · cases x <;> first | rfl | cases hx
      · cases x <;> first | rfl | cases hx
      · rw [hdms]; exact (hd h0).elim .inl fun h => .inr (.inl h)
    split
    · exact (outside .ready rfl).cycleOpenTest st
    · exact (outside .preheat rfl).startSettle st
  next => exact h

/-- In CHARGING and in PRESS_LOAD the sequencer rests. -/
theorem Keeps.dms_rests (h : Keeps k s0 s) {st : Station}
    (hst : (stcOf s st).state ≠ .demoulding ∧ (stcOf s st).state ≠ .held) (h0 : cycleSound s0) :
    (dmsOf s st).state = .idle ∨ (dmsOf s st).state = .done := by
  obtain ⟨-, -, -, h4⟩ := (cycleSound_iff s).mp (h.cycles h0) st
  rcases h4 with h | h | h | h
  · exact .inl h
  · exact .inr h
  · exact absurd h hst.1
  · exact absurd h hst.2

theorem Keeps.endFromCharging (h : Keeps .work s0 s) (st : Station)
    (hst : (stcOf s st).state ≠ .demoulding ∧ (stcOf s st).state ≠ .held) :
    Keeps .work s0 (endFromCharging st s) := by
  refine Keeps.closeCycle ((h.leaveScale st).setFlag st _) st fun h0 => ?_
  have scale : ScaleOnly s (Machine.setFlag st .aborted (Machine.leaveScale st s)) :=
    (scaleOnly_leaveScale st s).trans (scaleOnly_modOpenRecord _ _ _)
  rw [scale.dmsOf]
  exact h.dms_rests hst h0

theorem Keeps.endFromPressLoad (h : Keeps .work s0 s) (st : Station)
    (hst : (stcOf s st).state ≠ .demoulding ∧ (stcOf s st).state ≠ .held) :
    Keeps .work s0 (endFromPressLoad st s) := by
  refine (h.postDiscard st).endFromCharging st ?_
  rw [(scaleOnly_postDiscard st s).stcOf]
  exact hst

theorem Keeps.finalReject (h : Keeps .work s0 s) (st : Station) : Keeps .work s0 (finalReject st s) := by
  unfold Machine.finalReject stateOf
  split
  next hc => exact h.endFromCharging st (by simp [hc])
  next => exact h

theorem Keeps.cancelled (h : Keeps .work s0 s) (st : Station) : Keeps .work s0 (cancelled st s) := by
  unfold Machine.cancelled stateOf
  split
  next hc => exact h.endFromCharging st (by simp [hc])
  next hc => exact h.endFromPressLoad st (by simp [hc])
  next => exact h

theorem Keeps.clearMarkers (h : Keeps k s0 s) (st : Station) : Keeps k s0 (clearMarkers st s) :=
  h.quiet _ rfl rfl rfl rfl rfl rfl rfl

/-- What `cycleSound` reads of a station is the same after the charge wait is stopped. -/
theorem coreOf_stopWait (st : Station) (s : Block) : coreOf (stcOf (stopWait st s) st) = coreOf (stcOf s st) := by
  have hcyc : ∀ (f : Cycle → Cycle) (x : Block), coreOf (stcOf (modCycle st f x) st) = coreOf (stcOf x st) := by
    intro f x
    simp [modCycle, coreOf]
  have hrec : ∀ (f : Record → Record) (x : Block), stcOf (modOpenRecord st f x) st = stcOf x st :=
    fun f x => (scaleOnly_modOpenRecord st f x).stcOf st
  unfold stopWait
  split
  · split
    · simp only
      split
      · exact (congrArg coreOf ((hrec _ _).trans (hrec _ _))).trans (hcyc _ _)
      · exact (congrArg coreOf (hrec _ _)).trans (hcyc _ _)
    · rfl
  · rfl

theorem Keeps.enterCuring (h : Keeps k s0 s) (st : Station) (hp : (stcOf s st).state = .pressLoad) :
    Keeps k s0 (enterCuring st s) := by
  have left := ((h.leaveScale st).stopWait st).dropAccepted st
  have hstate : (stcOf (Machine.dropAccepted st (Machine.stopWait st (Machine.leaveScale st s))) st).state = .pressLoad := by
    have hcore := coreOf_stopWait st (Machine.leaveScale st s)
    rw [(scaleOnly_leaveScale st s).stcOf] at hcore
    exact (congrArg Prod.fst hcore).trans hp
  have entered : Keeps k s0 (Machine.modStc st (fun c => { c with state := .curing, closeOk := false })
      (Machine.dropAccepted st (Machine.stopWait st (Machine.leaveScale st s)))) := by
    refine left.modStc_of st _ fun _ hs => ?_
    obtain ⟨-, h2, h3, h4⟩ := hs
    simp only [hstate, reduceCtorEq, decide_false, or_false] at h2 h4
    rw [hstate] at h3
    exact ⟨rfl, h2, h3, h4.elim .inl fun h => .inr (.inl h)⟩
  have judged := ((((entered.modOpenRecord st fun r => { r with cure := some emptyCure }).modCycle st
    (startCure (heldOf s (.stationSignal st .tonnage)))).clearMarkers st).judgeGate st)
  unfold Machine.enterCuring
  simp only
  split
  · exact judged.setFlag _ _
  · exact judged

end Sys2Proof.Machine
end

section
/-! PROOFS. What every command keeps: the ends of a cycle's phases and the Demould Sequencer. -/

namespace Sys2Proof.Machine

open Sys2Proof

variable {k : Phase} {s0 s : Block}

/-! ### CURING and the scale's outcomes (R71 to R78, R141, R142) -/

theorem Keeps.cureTest (h : Keeps k s0 s) (st : Station) : Keeps k s0 (cureTest st s) := by
  unfold Machine.cureTest
  split
  next hp _ =>
    split
    · exact h.enterCuring st hp
    · exact h
  next => exact h

theorem Keeps.acceptCharge (h : Keeps k s0 s) (st : Station) : Keeps k s0 (acceptCharge st s) := by
  unfold Machine.acceptCharge
  split
  next hc =>
    have hstate : (stcOf s st).state = .charging := hc
    refine Keeps.cureTest (Keeps.modCycle (h.modStc_of st _ fun _ ⟨_, h2, h3, h4⟩ => ?_) st _) st
    simp only [hstate, reduceCtorEq, decide_false, or_false] at h2 h4
    rw [hstate] at h3
    exact ⟨by simp, h2, h3, h4.elim .inl fun h => .inr (.inl h)⟩
  next => exact h

theorem Keeps.closedRising (h : Keeps k s0 s) (st : Station) : Keeps k s0 (closedRising st s) := by
  have flagged : Keeps k s0 (if (stcOf s st).closeOk then s else Machine.setFlag st .unpermittedClose s) := by
    split
    · exact h
    · exact h.setFlag _ _
  unfold Machine.closedRising
  simp only
  split
  · split
    · exact flagged.stopWait st
    · exact flagged
  · exact h

theorem Keeps.raisePeak (h : Keeps k s0 s) (st : Station) (v : Int) : Keeps k s0 (raisePeak st v s) := h.modCycle _ _

theorem judgeAllowance_stc (st : Station) (s : Block) : (judgeAllowance st s).stc = s.stc := by
  rw [judgeAllowance_spec]

theorem modOpenRecord_stc (st : Station) (f : Record → Record) (s : Block) : (modOpenRecord st f s).stc = s.stc :=
  (scaleOnly_modOpenRecord st f s).stc

@[simp] theorem stcOf_modOpenRecord (st st' : Station) (f : Record → Record) (s : Block) :
    stcOf (modOpenRecord st f s) st' = stcOf s st' := (scaleOnly_modOpenRecord st f s).stcOf st'

@[simp] theorem dmsOf_modOpenRecord (st st' : Station) (f : Record → Record) (s : Block) :
    dmsOf (modOpenRecord st f s) st' = dmsOf s st' := (scaleOnly_modOpenRecord st f s).dmsOf st'

@[simp] theorem stcOf_setFlag (st st' : Station) (f : RecFlag) (s : Block) :
    stcOf (setFlag st f s) st' = stcOf s st' := stcOf_modOpenRecord _ _ _ _

@[simp] theorem dmsOf_setFlag (st st' : Station) (f : RecFlag) (s : Block) :
    dmsOf (setFlag st f s) st' = dmsOf s st' := dmsOf_modOpenRecord _ _ _ _

@[simp] theorem stcOf_judgeAllowance (st st' : Station) (s : Block) :
    stcOf (judgeAllowance st s) st' = stcOf s st' := congrArg (·.get st') (judgeAllowance_stc st s)

theorem coreOf_modCycle (st : Station) (f : Cycle → Cycle) (s : Block) :
    coreOf (stcOf (modCycle st f s) st) = coreOf (stcOf s st) := by simp [modCycle, coreOf]

theorem Keeps.exitCuring (h : Keeps k s0 s) (st : Station) : Keeps k s0 (exitCuring st s) := by
  unfold Machine.exitCuring
  split
  · exact ((h.judgeAllowance st).modCycle _ _).modOpenRecord _ _
  · exact h

/-- Leaving CURING changes of the station only counts of its cycle. -/
theorem coreOf_exitCuring (st : Station) (s : Block) : coreOf (stcOf (exitCuring st s) st) = coreOf (stcOf s st) := by
  unfold exitCuring
  split
  · rw [stcOf_modOpenRecord, coreOf_modCycle, stcOf_judgeAllowance]
  · rfl

theorem Keeps.enterOpening (h : Keeps k s0 s) (st : Station) (hc : (stcOf s st).state = .curing) :
    Keeps k s0 (enterOpening st s) := by
  have hstate : (stcOf (Machine.exitCuring st s) st).state = .curing :=
    (congrArg Prod.fst (coreOf_exitCuring st s)).trans hc
  refine (h.exitCuring st).modStc_of st _ fun _ ⟨h1, _, h3, h4⟩ => ?_
  simp only [hstate, reduceCtorEq, decide_false, Bool.false_and, or_false] at h1 h4
  rw [hstate] at h3
  exact ⟨h1, rfl, h3, h4.elim .inl fun h => .inr (.inl h)⟩

theorem Keeps.deliverOutcome {x : Block × Outcome} (h : Keeps .work s0 x.1) : Keeps .work s0 (deliverOutcome x) := by
  unfold Machine.deliverOutcome
  split
  · exact h.acceptCharge _
  · exact h.finalReject _
  · exact h

theorem Keeps.capture (h : Keeps .work s0 s) : Keeps .work s0 (capture s) := by
  unfold Machine.capture
  split
  · exact (h.captureAttempt _).deliverOutcome
  · exact h

theorem Keeps.evalSettling (h : Keeps .work s0 s) : Keeps .work s0 (evalSettling s) := by
  unfold Machine.evalSettling
  split
  · exact h.capture
  · exact h

theorem Keeps.evalSession (h : Keeps .work s0 s) : Keeps .work s0 (evalSession s) := by
  unfold Machine.evalSession
  split
  · exact h
  · split
    · exact h.evalClearing
    · exact h.evalLoading
    · exact h.evalSettling
    · split
      · exact h.endSession.grantOldest
      · exact h
    · split
      · exact h.enterLoading
      · exact h

theorem Keeps.scaleReading (h : Keeps .work s0 s) (raw : Int) : Keeps .work s0 (scaleReading raw s) :=
  (h.takeReading raw).evalSession

theorem Keeps.scaleDone (h : Keeps .work s0 s) : Keeps .work s0 (scaleDone s) := by
  unfold Machine.scaleDone
  split
  · split
    · exact ((h.modSession _).modScu _).evalSettling
    · exact h
  · exact h

/-! ### The Demould Sequencer (chapter 8) -/

/-- The states in which a sequencer may be at work or halted. -/
def works (x : StationState) : Prop := x = .demoulding ∨ x = .held

@[simp] theorem stcOf_modDms (st st' : Station) (f : Dms → Dms) (s : Block) :
    stcOf (modDms st f s) st' = stcOf s st' := rfl

@[simp] theorem stcOf_postStroke (st st' : Station) (o : StrokeOrder) (s : Block) :
    stcOf (postStroke st o s) st' = stcOf s st' := by rw [postStroke_spec]; rfl

@[simp] theorem dmsOf_postStroke (st st' : Station) (o : StrokeOrder) (s : Block) :
    dmsOf (postStroke st o s) st' = dmsOf s st' := by rw [postStroke_spec]; rfl

@[simp] theorem stcOf_postStop (st st' : Station) (s : Block) : stcOf (postStop st s) st' = stcOf s st' := by
  simp [postStop]

@[simp] theorem stcOf_postMotion (st st' : Station) (o : StrokeOrder) (t : Nat) (s : Block) :
    stcOf (postMotion st o t s) st' = stcOf s st' := by simp [postMotion]

@[simp] theorem stcOf_modDemould (st st' : Station) (f : DemouldPart → DemouldPart) (s : Block) :
    stcOf (modDemould st f s) st' = stcOf s st' := stcOf_modOpenRecord _ _ _ _

@[simp] theorem stcOf_countStall (st st' : Station) (s : Block) : stcOf (countStall st s) st' = stcOf s st' := by
  simp [countStall]

theorem Keeps.modDemould (h : Keeps k s0 s) (st : Station) (f : DemouldPart → DemouldPart) :
    Keeps k s0 (modDemould st f s) := h.modOpenRecord _ _

theorem Keeps.countStall (h : Keeps k s0 s) (st : Station) : Keeps k s0 (countStall st s) :=
  (h.modDemould _ _).setFlag _ _

theorem Keeps.raiseForce (h : Keeps k s0 s) (st : Station) (v : Int) : Keeps k s0 (raiseForce st v s) :=
  h.modDemould _ _

theorem Keeps.postStop (h : Keeps k s0 s) (st : Station) : Keeps k s0 (postStop st s) := (h.postStroke _ _).modDms _ _

theorem Keeps.postMotion (h : Keeps k s0 s) (st : Station) (o : StrokeOrder) (t : Nat) :
    Keeps k s0 (postMotion st o t s) := (h.postStroke _ _).modDms _ _

/-- The blocks a command passes through while station `st` is, from a sound start, in DEMOULDING or HELD, so that its
sequencer may do anything. -/
structure AtWork (k : Phase) (s0 s : Block) (st : Station) : Prop where
  keeps : Keeps k s0 s
  state : cycleSound s0 → works (stcOf s st).state

variable {st : Station}

/-- A change that leaves the station's controller as it was. -/
theorem AtWork.of_keeps {t : Block} (h : AtWork k s0 s st) (ht : Keeps k s0 t) (e : stcOf t st = stcOf s st) :
    AtWork k s0 t st := ⟨ht, e ▸ h.state⟩

theorem AtWork.modDms (h : AtWork k s0 s st) (f : Dms → Dms) : AtWork k s0 (modDms st f s) st :=
  h.of_keeps (h.keeps.modDms_of st f fun h0 ⟨h1, h2, h3, _⟩ =>
    ⟨h1, h2, h3, (h.state h0).elim (.inr ∘ .inr ∘ .inl) (.inr ∘ .inr ∘ .inr)⟩) rfl

theorem AtWork.modOpenRecord (h : AtWork k s0 s st) (f : Record → Record) (hf : ∀ r, recordKept r (f r)) :
    AtWork k s0 (modOpenRecord st f s) st := h.of_keeps (h.keeps.modOpenRecord st f hf) (by simp)

theorem AtWork.modDemould (h : AtWork k s0 s st) (f : DemouldPart → DemouldPart) :
    AtWork k s0 (modDemould st f s) st := h.of_keeps (h.keeps.modDemould st f) (by simp)

theorem AtWork.countStall (h : AtWork k s0 s st) : AtWork k s0 (countStall st s) st :=
  h.of_keeps (h.keeps.countStall st) (by simp)

theorem AtWork.setFlag (h : AtWork k s0 s st) (f : RecFlag) : AtWork k s0 (setFlag st f s) st :=
  h.of_keeps (h.keeps.setFlag st f) (by simp)

theorem AtWork.postStop (h : AtWork k s0 s st) : AtWork k s0 (postStop st s) st :=
  h.of_keeps (h.keeps.postStop st) (by simp)

theorem AtWork.postMotion (h : AtWork k s0 s st) (o : StrokeOrder) (t : Nat) : AtWork k s0 (postMotion st o t s) st :=
  h.of_keeps (h.keeps.postMotion st o t) (by simp)

theorem AtWork.setLevel (h : AtWork k s0 s st) (c : Cond) (on : Bool) : AtWork k s0 (setLevel c on s) st :=
  h.of_keeps (h.keeps.setLevel c on) (by simp)

/-- A station goes between DEMOULDING and HELD. -/
theorem AtWork.setState (h : AtWork k s0 s st) {x : StationState} (hx : works x) : AtWork k s0 (setState st x s) st where
  keeps := by
    refine h.keeps.modStc_of st _ fun h0 ⟨h1, h2, h3, _⟩ =>
      ⟨?_, ?_, ?_, hx.elim (.inr ∘ .inr ∘ .inl) (.inr ∘ .inr ∘ .inr)⟩
    · rcases h.state h0 with e | e <;> rcases hx with rfl | rfl <;> simpa [e] using h1
    · rcases h.state h0 with e | e <;> rcases hx with rfl | rfl <;> simpa [e] using h2
    · rcases h.state h0 with e | e <;> rcases hx with rfl | rfl <;> exact h3.trans (by simp [e, isCycleState])
  state _ := by rw [Machine.setState, stcOf_modStc_self]; exact hx

theorem AtWork.halt (h : AtWork k s0 s st) (cause : HaltCause) (stuck : BitVec 8) (resume : Resume) :
    AtWork k s0 (halt st cause stuck resume s) st := by
  have halted := h.postStop.modDms (haltedDms cause stuck resume)
  unfold Machine.halt
  simp only
  refine AtWork.setLevel (AtWork.setState ?_ (.inr rfl)) _ _
  split
  · exact halted.modDemould _
  · exact halted

theorem AtWork.issueStep (h : AtWork k s0 s st) : AtWork k s0 (issueStep st s) st := by
  unfold Machine.issueStep
  split
  · exact h
  · split
    · exact ((h.modDms _).postMotion _ _).modDms _
    · exact h.halt _ _ _

theorem AtWork.enterHoming (h : AtWork k s0 s st) : AtWork k s0 (enterHoming st s) st := by
  unfold Machine.enterHoming
  split
  · exact h
  · split
    · exact (h.postMotion _ _).modDms _
    · exact h.halt _ _ _

theorem AtWork.beginProbe (h : AtWork k s0 s st) (g : Nat) : AtWork k s0 (beginProbe st g s) st := by
  unfold Machine.beginProbe
  split
  · exact h
  · simp only
    split
    · exact (h.modDms _).postMotion _ _
    · exact (h.modDms _).halt _ _ _

theorem AtWork.beginScan (h : AtWork k s0 s st) : AtWork k s0 (beginScan st s) st := by
  unfold Machine.beginScan
  split
  · exact (h.modDms _).beginProbe _
  · exact h

theorem AtWork.retract (h : AtWork k s0 s st) : AtWork k s0 (retract st s) st := by
  unfold Machine.retract
  split
  · exact h
  · split
    · exact (h.postMotion _ _).modDms _
    · exact h.halt _ _ _

theorem AtWork.takeAction (h : AtWork k s0 s st) (a : Resume) : AtWork k s0 (takeAction st a s) st := by
  unfold Machine.takeAction
  split
  · exact h
  · exact h.issueStep
  · exact h.enterHoming
  · split
    · exact (h.modDms _).beginProbe _
    · exact h

theorem AtWork.pause (h : AtWork k s0 s st) (a : Resume) : AtWork k s0 (pause st a s) st := h.modDms _

theorem AtWork.advance (h : AtWork k s0 s st) : AtWork k s0 (advance st s).1 st := by
  unfold Machine.advance
  simp only
  split
  · dsimp only
    exact h.modDms _
  · exact h

theorem AtWork.stepBoundary (h : AtWork k s0 s st) : AtWork k s0 (stepBoundary st s) st := by
  unfold Machine.stepBoundary
  simp only
  split
  · exact (h.advance.modDms _).halt _ _ _
  · split
    · exact h.advance.pause _
    · exact h.advance.takeAction _

theorem AtWork.dwellDone (h : AtWork k s0 s st) : AtWork k s0 (dwellDone st s) st :=
  ((h.modDms _).modDemould _).stepBoundary

theorem AtWork.startDwell (h : AtWork k s0 s st) (done : Block → Block) (hdone : AtWork k s0 (done s) st) :
    AtWork k s0 (startDwell st done s) st := by
  unfold Machine.startDwell
  split
  · exact h
  · split
    · exact hdone
    · exact h.modDms _

theorem AtWork.endScan (h : AtWork k s0 s st) : AtWork k s0 (endScan st s) st := by
  unfold Machine.endScan
  simp only
  split
  · exact h.halt _ _ _
  · exact h.halt _ _ _

theorem AtWork.restDone (h : AtWork k s0 s st) : AtWork k s0 (restDone st s) st := by
  unfold Machine.restDone
  simp only
  split
  · split
    · exact ((h.modDms _).modDms _).pause _
    · exact (h.modDms _).beginProbe _
  · exact (h.modDms _).endScan

theorem AtWork.probeReturn (h : AtWork k s0 s st) : AtWork k s0 (probeReturn st s) st := by
  unfold Machine.probeReturn
  split
  · simp only
    split
    · exact (h.modDms _).postMotion _ _
    · exact (h.modDms _).halt _ _ _
  · exact h

theorem AtWork.probeStuckNow (h : AtWork k s0 s st) : AtWork k s0 (probeStuckNow st s) st := by
  unfold Machine.probeStuckNow
  split
  · exact (h.modDms _).postStop.probeReturn
  · exact h

theorem AtWork.startChain (h : AtWork k s0 s st) : AtWork k s0 (startChain st s) st := by
  unfold Machine.startChain
  have present := h.modOpenRecord (fun r => { r with demould := some emptyDemould }) fun _ => ⟨rfl, rfl, BitVec.and_self⟩
  split
  · exact (present.modDms _).issueStep
  · exact h

theorem Keeps.chainDone (h : Keeps .work s0 s) (st : Station) : Keeps .work s0 (chainDone st s) := by
  unfold Machine.chainDone
  simp only
  refine Keeps.closeCycle (((h.postStop st).modDemould st _).modDms_of st _ fun _ ⟨h1, h2, h3, _⟩ =>
    ⟨h1, h2, h3, .inr (.inl rfl)⟩) st fun _ => .inr ?_
  rw [dmsOf_modDms_self]

theorem AtWork.retractArrival (h : AtWork k s0 s st) : AtWork k s0 (retractArrival st s) st := by
  unfold Machine.retractArrival
  split
  · exact (h.modDms _).beginScan
  · exact ((h.modDms _).modDemould _).issueStep

theorem AtWork.arrival (h : AtWork .work s0 s st) : Keeps .work s0 (arrival st s) := by
  unfold Machine.arrival
  simp only
  split
  · have dwelling := (h.modDms fun d => { d with stepTimer := none }).modDms fun d => { d with state := .dwell }
    exact (dwelling.startDwell _ dwelling.dwellDone).keeps
  · exact (h.modDms _).retractArrival.keeps
  · split
    · exact (h.modDms _).probeReturn.keeps
    · have resting := (h.modDms fun d => { d with stepTimer := none }).modDms fun d => { d with probePhase := .rest }
      exact (resting.startDwell _ resting.restDone).keeps
    · exact h.keeps
  · exact (h.modDms _).keeps.chainDone st
  · exact h.keeps

/-- A sequencer that is neither IDLE nor DONE is at work. -/
theorem Keeps.atWork (h : Keeps k s0 s) (hd : (dmsOf s st).state ≠ .idle ∧ (dmsOf s st).state ≠ .done) :
    AtWork k s0 s st where
  keeps := h
  state h0 := by
    obtain ⟨-, -, -, h4⟩ := (cycleSound_iff s).mp (h.cycles h0) st
    rcases h4 with h | h | h | h
    · exact absurd h hd.1
    · exact absurd h hd.2
    · exact .inl h
    · exact .inr h

theorem atWork_of_isMoving {d : Dms} (h : isMoving d = true) : d.state ≠ .idle ∧ d.state ≠ .done := by
  constructor <;> intro e <;> simp [isMoving, e] at h

theorem Keeps.posReading (h : Keeps .work s0 s) (st : Station) (v : Int) : Keeps .work s0 (posReading st v s) := by
  unfold Machine.posReading
  split
  next hm =>
    rw [Bool.and_eq_true] at hm
    exact (h.atWork (atWork_of_isMoving hm.1)).arrival
  next => exact h

theorem AtWork.stall (h : AtWork k s0 s st) : AtWork k s0 (stall st s) st := by
  unfold Machine.stall
  simp only
  split
  · exact h.postStop.countStall.retract
  · split
    · exact (h.postStop.countStall.modDms _).retract
    · exact h.postStop.countStall.halt _ _ _

theorem AtWork.stallHalt (h : AtWork k s0 s st) (cause : HaltCause) (stuck : BitVec 8) (resume : Resume) :
    AtWork k s0 (stallHalt st cause stuck resume s) st := h.postStop.countStall.halt _ _ _

theorem Keeps.forceExceeded (h : Keeps k s0 s) (st : Station) : Keeps k s0 (forceExceeded st s) := by
  unfold Machine.forceExceeded
  simp only
  split
  next hd => exact (h.atWork (by simp [hd])).stall.keeps
  next hd => exact ((h.atWork (by simp [hd])).stallHalt _ _ _).keeps
  next hd =>
    have hw : AtWork k s0 s st := h.atWork (by simp [hd])
    split
    · exact hw.probeStuckNow.keeps
    · exact (hw.stallHalt _ _ _).keeps
    · exact h
  next hd => exact ((h.atWork (by simp [hd])).stallHalt _ _ _).keeps
  next => exact h

theorem Keeps.forceReading (h : Keeps k s0 s) (st : Station) (v : Int) : Keeps k s0 (forceReading st v s) := by
  have raised := h.raiseForce st v
  unfold Machine.forceReading
  simp only
  split
  · split
    · exact raised.forceExceeded st
    · exact raised
  · exact raised

theorem Keeps.ejectorStale (h : Keeps k s0 s) (st : Station) : Keeps k s0 (ejectorStale st s) := by
  unfold Machine.ejectorStale
  simp only
  split
  next hm =>
    have hw := h.atWork (atWork_of_isMoving hm)
    split
    all_goals exact (hw.halt _ _ _).keeps
  next => exact h

theorem Keeps.holdEvent (h : Keeps k s0 s) (st : Station) : Keeps k s0 (holdEvent st s) := by
  unfold Machine.holdEvent
  simp only
  split
  next hp =>
    simp only [Bool.and_eq_true, decide_eq_true_eq] at hp
    have hw : AtWork k s0 s st := h.atWork (by simp [hp.1])
    exact ((hw.modDms _).takeAction _).keeps
  next => exact h

theorem Keeps.stepExpiry (h : Keeps k s0 s) (st : Station) : Keeps k s0 (stepExpiry st s) := by
  unfold Machine.stepExpiry
  simp only
  split
  next hd => exact ((h.atWork (by simp [hd])).halt _ _ _).keeps
  next hd => exact ((h.atWork (by simp [hd])).halt _ _ _).keeps
  next hd =>
    have hw : AtWork k s0 s st := h.atWork (by simp [hd])
    split
    · exact hw.probeStuckNow.keeps
    · exact (hw.halt _ _ _).keeps
    · exact h
  next hd => exact ((h.atWork (by simp [hd])).halt _ _ _).keeps
  next => exact h

theorem Keeps.dwellExpiry (h : Keeps k s0 s) (st : Station) : Keeps k s0 (dwellExpiry st s) := by
  unfold Machine.dwellExpiry
  simp only
  split
  next hd => exact (h.atWork (by simp [hd])).dwellDone.keeps
  next hd =>
    split
    · exact (h.atWork (by simp [hd])).restDone.keeps
    · exact h
  next => exact h

theorem AtWork.abortDms (h : AtWork k s0 s st) : AtWork k s0 (abortDms st s) st := by
  unfold Machine.abortDms
  simp only
  split
  · exact h
  · split
    · exact h.halt _ _ _
    · exact h.modDms _

theorem AtWork.leaveHeld (h : AtWork k s0 s st) : AtWork k s0 (leaveHeld st s) st :=
  (h.setState (.inl rfl)).setLevel _ _

theorem AtWork.releaseDms (h : AtWork k s0 s st) : AtWork k s0 (releaseDms st s) st := by
  unfold Machine.releaseDms
  simp only
  split
  · split
    · exact (((h.modDms _).modDms _).modDemould _).stepBoundary
    · exact ((h.modDms _).modDms _).issueStep
  · exact (h.modDms _).takeAction _

theorem AtWork.resetSequencer (h : AtWork k s0 s st) : AtWork k s0 (resetSequencer st s) st :=
  ((h.setFlag _).modDms _).enterHoming

end Sys2Proof.Machine
end

section
/-! PROOFS. What every command keeps: the Zone Regulator, the Power Allocator, the Sample Classifier and the close of an
event. -/

namespace Sys2Proof.Machine

open Sys2Proof

variable {k : Phase} {s0 s : Block}

/-! ### The Zone Regulator (chapter 5) -/

/-- A change of a zone that leaves its state, timers and grant as they were. -/
theorem Keeps.modZone_idle (h : Keeps k s0 s) (z : Fin 32) (f : Zone → Zone) (hf : ∀ c, zoneIdle c → zoneIdle (f c)) :
    Keeps k s0 (Machine.modZone z f s) :=
  h.modZone z f fun _ => .inr (hf _)

theorem Keeps.countFault (h : Keeps k s0 s) (z : Fin 32) (sl : Slot) : Keeps k s0 (countFault z sl s) := by
  refine h.modZone_idle z _ fun c hc => ?_
  rw [if_pos hc.1]
  exact hc

theorem Keeps.switchSlot (h : Keeps k s0 s) (z : Fin 32) : Keeps k s0 (switchSlot z s) := by
  have switched := h.modZone_idle z (fun c => restartWindow (entryOf s z) { c with slot := otherSlot c.slot })
    fun _ hc => hc
  unfold Machine.switchSlot
  simp only
  split
  · exact switched.setFlag _ _
  · exact switched

theorem Keeps.selectSensor (h : Keeps k s0 s) (z : Fin 32) : Keeps k s0 (selectSensor z s) := by
  have moved := h.modZone_idle z (fun c => { c with windowPos := c.windowPos + 1 }) fun _ hc => hc
  unfold Machine.selectSensor
  simp only
  split
  · exact moved.switchSlot z
  · split
    · split
      · exact moved.switchSlot z
      · exact moved.modZone_idle z _ fun _ hc => hc
    · exact moved

theorem Keeps.setBand (h : Keeps k s0 s) (z : Fin 32) (b : Bool) : Keeps k s0 (setBand z b s) := by
  unfold Machine.setBand
  split
  · exact h
  · refine Keeps.zoneReport ?_ _ _ _
    exact h.modZone_idle z _ fun _ hc => hc

theorem Keeps.judgeHeatFault (h : Keeps k s0 s) (st : Station) : Keeps k s0 (judgeHeatFault st s) := h.setLevel _ _

theorem Keeps.dropAllowance (h : Keeps k s0 s) (z : Fin 32) : Keeps k s0 (dropAllowance z s) := h.quiet _

/-- The blocks a command passes through while zone `z` is, from a sound start, enabled, so that it may do anything. -/
structure ZoneOn (k : Phase) (s0 s : Block) (z : Fin 32) : Prop where
  keeps : Keeps k s0 s
  enabled : controlSound s0 → (entryOf s z).enabled = true

variable {z : Fin 32}

theorem ZoneOn.of_keeps {t : Block} (h : ZoneOn k s0 s z) (ht : Keeps k s0 t) (e : t.tab = s.tab) : ZoneOn k s0 t z :=
  ⟨ht, by unfold entryOf; rw [e]; exact h.enabled⟩

/-- A zone that does anything is on. -/
theorem Keeps.zoneOn (h : Keeps k s0 s) (hb : ¬ zoneIdle (zoneOf s z)) : ZoneOn k s0 s z := ⟨h, h.enabled_of_busy z hb⟩

theorem ZoneOn.modZone (h : ZoneOn k s0 s z) (f : Zone → Zone) : ZoneOn k s0 (modZone z f s) z :=
  h.of_keeps (h.keeps.modZone z f fun h0 => .inl (h.enabled h0)) rfl

theorem ZoneOn.postDuty (h : ZoneOn k s0 s z) : ZoneOn k s0 (postDuty z s) z :=
  h.of_keeps (h.keeps.postDuty z h.enabled) (by rw [postDuty_spec])

theorem ZoneOn.dropAllowance (h : ZoneOn k s0 s z) : ZoneOn k s0 (dropAllowance z s) z :=
  h.of_keeps (h.keeps.dropAllowance z) rfl

theorem ZoneOn.setBand (h : ZoneOn k s0 s z) (b : Bool) : ZoneOn k s0 (setBand z b s) z :=
  h.of_keeps (h.keeps.setBand z b) (by rw [heatOnly_setBand])

theorem ZoneOn.enterFault (h : ZoneOn k s0 s z) (cause : ZoneCause) : Keeps k s0 (enterFault z cause s) := by
  have faulted := ((((h.modZone (faultedZone cause)).dropAllowance).postDuty).setBand false).keeps.judgeHeatFault
    (entryOf s z).station
  unfold Machine.enterFault
  simp only
  split
  · exact faulted.setFlag _ _
  · exact faulted

theorem ZoneOn.regulateUsable (h : ZoneOn k s0 s z) : Keeps k s0 (regulateUsable z s) := by
  unfold Machine.regulateUsable
  simp only
  split
  · exact h.enterFault _
  · exact ((h.modZone _).postDuty.setBand _).keeps

theorem ZoneOn.blindDuty (h : ZoneOn k s0 s z) : Keeps k s0 (blindDuty z s) := ((h.modZone _).postDuty.setBand _).keeps

theorem ZoneOn.regulateByState (h : ZoneOn k s0 s z) : Keeps k s0 (regulateByState z s) := by
  unfold Machine.regulateByState
  split
  · exact h.keeps
  · exact ((h.modZone _).postDuty.setBand _).keeps
  · exact ((h.modZone _).postDuty.setBand _).keeps
  · split
    · exact h.regulateUsable
    · exact (h.modZone _).blindDuty
  · split
    · exact (h.modZone _).regulateUsable
    · exact h.blindDuty

theorem Keeps.summarise (h : Keeps k s0 s) (z : Fin 32) : Keeps k s0 (summarise z s) := by
  unfold Machine.summarise
  simp only
  split
  · exact (h.modOpenRecord (entryOf s z).station _).quiet _ rfl rfl rfl rfl rfl rfl rfl
  · exact h

theorem switchSlot_tab (z : Fin 32) (s : Block) : (switchSlot z s).tab = s.tab := by
  unfold switchSlot setFlag
  simp only
  split
  · exact (scaleOnly_modOpenRecord _ _ _).tab
  · rfl

theorem selectSensor_tab (z : Fin 32) (s : Block) : (selectSensor z s).tab = s.tab := by
  unfold selectSensor
  simp only
  split
  · exact switchSlot_tab _ _
  · split
    · split
      · exact switchSlot_tab _ _
      · rfl
    · rfl

theorem ZoneOn.regulation (h : ZoneOn k s0 s z) : Keeps k s0 (regulation z s) := by
  have started := h.modZone fun c => { c with timer := startTimer (periodOf (entryOf s z)) }
  have selected := started.of_keeps (started.keeps.selectSensor z) (selectSensor_tab z _)
  exact selected.regulateByState.summarise z

theorem Keeps.leaveOff (h : Keeps k s0 s) (z : Fin 32) : Keeps k s0 (leaveOff z s) := by
  unfold Machine.leaveOff
  split
  next ho => exact ((h.zoneOn fun hi => by rw [hi.1] at ho; cases ho).modZone _).keeps
  next => exact h

theorem Keeps.enterOff (h : Keeps k s0 s) (z : Fin 32) : Keeps k s0 (enterOff z s) := by
  unfold Machine.enterOff
  split
  case h_4 => exact h
  all_goals
    next ho =>
      have on : ZoneOn k s0 s z := h.zoneOn fun hi => by rw [hi.1] at ho; cases ho
      exact (((on.modZone _).dropAllowance.postDuty).setBand _).keeps.judgeHeatFault _

/-- Zones taken one after another. -/
theorem Keeps.foldl (h : Keeps k s0 s) {α : Type} (f : Block → α → Block)
    (hf : ∀ a s, Keeps k s0 s → Keeps k s0 (f s a)) (l : List α) : Keeps k s0 (l.foldl f s) := by
  induction l generalizing s with
  | nil => exact h
  | cons a l ih => exact ih (hf a s h)

theorem Keeps.eachZone (h : Keeps k s0 s) (st : Station) (f : Fin 32 → Block → Block)
    (hf : ∀ z s, Keeps k s0 s → Keeps k s0 (f z s)) : Keeps k s0 (eachZone st f s) := h.foldl _ hf _

theorem Keeps.moveTargets (h : Keeps k s0 s) (st : Station) : Keeps k s0 (moveTargets st s) := by
  refine h.eachZone st _ fun z s h => ?_
  split
  · exact h.setBand z false
  · exact h

theorem Keeps.followFrom (h : Keeps k s0 s) (old : StationState) (st : Station) : Keeps k s0 (followFrom old st s) := by
  unfold Machine.followFrom
  split
  · exact h.eachZone st _ fun z _ h => h.leaveOff z
  · exact h

/-- A station outside a cycle goes to another such state, in fields outside the permits and the cycle. -/
theorem Keeps.modStc_outside (h : Keeps k s0 s) {st : Station} (hs : isCycleState (stcOf s st).state = false)
    (f : Stc → Stc) (hx : isCycleState (f (stcOf s st)).state = false)
    (hc : (f (stcOf s st)).closeOk = (stcOf s st).closeOk) (ho : (f (stcOf s st)).openOk = (stcOf s st).openOk)
    (hy : (f (stcOf s st)).cycle = (stcOf s st).cycle) : Keeps k s0 (Machine.modStc st f s) := by
  refine h.modStc_of st f fun _ hsound => (stationSound_outside_iff hx).mpr ?_
  rw [hc, ho, hy]
  exact (stationSound_outside_iff hs).mp hsound

theorem Keeps.enterHeat (h : Keeps k s0 s) {st : Station} (hs : isCycleState (stcOf s st).state = false) :
    Keeps k s0 (enterHeat st s) :=
  ((h.modStc_outside hs (fun c => { c with state := .preheat, heatReady := false, settle := none }) rfl rfl rfl
    rfl).followFrom _ st).startSettle st

theorem Keeps.enterCold (h : Keeps k s0 s) {st : Station} (hs : isCycleState (stcOf s st).state = false)
    {x : StationState} (hx : isCycleState x = false) : Keeps k s0 (enterCold st x s) :=
  (h.modStc_outside hs (fun c => { c with state := x, deferredWake := false, heatReady := false, settle := none }) hx rfl
    rfl rfl).setNoCycle st _

theorem Keeps.goStandby (h : Keeps k s0 s) {st : Station} (hs : isCycleState (stcOf s st).state = false) :
    Keeps k s0 (goStandby st s) := (h.enterCold hs rfl).followFrom _ st

theorem Keeps.goOff (h : Keeps k s0 s) {st : Station} (hs : isCycleState (stcOf s st).state = false) :
    Keeps k s0 (goOff st s) := (h.enterCold hs rfl).eachZone st _ fun z _ h => h.enterOff z

theorem Keeps.recoverZone (h : Keeps k s0 s) (z : Fin 32) : Keeps k s0 (recoverZone z s).2 := by
  unfold Machine.recoverZone
  simp only
  split
  · exact h
  next hf =>
    have on : ZoneOn k s0 s z := h.zoneOn fun hi => by rw [hi.1] at hf; exact hf (by simp)
    split
    · exact h
    · generalize hx : (if slotFresh s z (zoneOf s z).slot = true then s else Machine.switchSlot z s) = x
      have switched : ZoneOn k s0 x z := by
        rw [← hx]
        split
        · exact on
        · exact on.of_keeps (h.switchSlot z) (switchSlot_tab z s)
      split
      · exact switched.keeps
      · exact (switched.modZone _).keeps.judgeHeatFault _

/-! ### The Power Allocator (chapter 6) -/

/-- The allocation changes only the Power Allocator. -/
theorem allocate_spec (s : Block) : allocate s = { s with pwa := (allocate s).pwa } := by
  unfold allocate
  rfl

theorem Keeps.clipZone (h : Keeps k s0 s) (z : Fin 32) : Keeps k s0 (clipZone z s) := by
  unfold Machine.clipZone
  split
  next hg => exact (((h.zoneOn fun hi => by rw [hi.2.2.2] at hg; exact Nat.not_lt_zero _ hg).modZone _).postDuty).keeps
  next => exact h

theorem Keeps.takeDeferred (h : Keeps k s0 s) (st : Station) : Keeps k s0 (takeDeferred st s) := by
  have dropped : Keeps k s0 (Machine.modStc st (fun c => { c with deferredWake := false }) s) := h.modStc st _
  unfold Machine.takeDeferred
  simp only
  split
  · split
    next hs =>
      refine dropped.enterHeat ?_
      rw [stcOf_modStc_self]
      rcases hs.1 with e | e <;> simp [e, isCycleState]
    next => exact dropped
  · exact h

theorem Keeps.judgePressure (h : Keeps k s0 s) : Keeps k s0 (judgePressure s) := by
  have noted (p : Bool) : Keeps k s0 { s with pwa := { s.pwa with pressure := p } } :=
    h.quiet _ rfl rfl rfl rfl rfl rfl rfl
  unfold Machine.judgePressure
  simp only
  split
  · exact (((noted _).setLevel _ _).takeDeferred _).takeDeferred _
  · exact (noted _).setLevel _ _

theorem Keeps.budgetEvent (h : Keeps k s0 s) : Keeps k s0 (budgetEvent s) := by
  have allocated : Keeps k s0 (allocate s) := by
    rw [allocate_spec]
    exact h.quiet _
  exact (allocated.foldl (fun s z => Machine.clipZone z s) (fun z _ h => h.clipZone z) allZones).judgePressure

theorem Keeps.startBudget (h : Keeps k s0 s) : Keeps k s0 (startBudget s) := h.quiet _

/-! ### The close of an event (R84, R106) -/

theorem Keeps.postPermits (h : Keeps k s0 s) (b : Block) : Keeps k s0 (postPermits b s) := by
  have one : ∀ st s, Keeps k s0 s → Keeps k s0 (postIfChanged b st s) := by
    intro st s h
    unfold postIfChanged
    split
    · exact h
    · exact h.postPermit st
  exact one _ _ (one _ _ h)

theorem Keeps.moveAll (h : Keeps k s0 s) (b : Block) : Keeps k s0 (moveAll b s) := by
  have one : ∀ st s, Keeps k s0 s → Keeps k s0 (moveIfChanged b st s) := by
    intro st s h
    unfold moveIfChanged
    split
    · exact h
    · exact h.moveTargets st
  exact one _ _ (one _ _ h)

theorem Keeps.event {f : Block → Block} (h : Keeps k s0 (f s)) : Keeps k s0 (event f s) :=
  ((h.postPermits _).moveAll _).postPermits _

/-! ### The Sample Classifier (chapter 2) -/

/-- A station leaves OPENING or CURING for DEMOULDING. -/
theorem Keeps.enterDemoulding (h : Keeps k s0 s) {st : Station} (f : Stc → Stc)
    (hs : (stcOf s st).state = .opening ∨ (stcOf s st).state = .curing)
    (hx : (f (stcOf s st)).state = .demoulding) (hc : (f (stcOf s st)).closeOk = (stcOf s st).closeOk)
    (ho : (f (stcOf s st)).openOk = false ∨ ((f (stcOf s st)).openOk = (stcOf s st).openOk ∧ (stcOf s st).state = .curing))
    (hy : (f (stcOf s st)).cycle = (stcOf s st).cycle) : AtWork k s0 (Machine.modStc st f s) st where
  keeps := by
    refine h.modStc_of st f fun _ ⟨h1, h2, h3, _⟩ => ⟨?_, ?_, ?_, .inr (.inr (.inl hx))⟩
    · rw [hc, h1, hx]
      rcases hs with e | e <;> rw [e] <;> rfl
    · rw [hx]
      rcases ho with e | ⟨e, hcur⟩
      · exact e
      · rw [e, h2, hcur]
        rfl
    · rw [hy, hx, h3]
      rcases hs with e | e <;> rw [e] <;> rfl
  state _ := by rw [stcOf_modStc_self, hx]; exact .inl rfl

theorem Keeps.openedRising (h : Keeps k s0 s) (st : Station) : Keeps k s0 (openedRising st s) := by
  unfold Machine.openedRising
  split
  next hs => exact (h.enterDemoulding _ (.inl hs) rfl rfl (.inl rfl) rfl).startChain.keeps
  next hs =>
    have left := (h.setFlag st .earlyOpen).exitCuring st
    have hstate : (stcOf (Machine.exitCuring st (Machine.setFlag st .earlyOpen s)) st).state = .curing := by
      have hcore := coreOf_exitCuring st (Machine.setFlag st .earlyOpen s)
      rw [stcOf_setFlag] at hcore
      exact (congrArg Prod.fst hcore).trans hs
    exact (left.enterDemoulding _ (.inr hstate) rfl rfl (.inr ⟨rfl, hstate⟩) rfl).startChain.keeps
  next => exact h

theorem Keeps.closedReading (h : Keeps k s0 s) (st : Station) (edge : Edge) : Keeps k s0 (closedReading st edge s) := by
  unfold Machine.closedReading
  split
  · exact ((h.closedRising st).cureTest st).judgeGate st
  · exact (h.cureTest st).judgeGate st

theorem Keeps.tonnageReading (h : Keeps k s0 s) (st : Station) (v : Int) : Keeps k s0 (tonnageReading st v s) := by
  unfold Machine.tonnageReading
  split
  · exact ((h.raisePeak st v).cureTest st).judgeGate st
  · exact (h.cureTest st).judgeGate st

theorem Keeps.deliverReading (h : Keeps .work s0 s) (t : Target) (v : Int) (edge : Edge) :
    Keeps .work s0 (deliverReading t v edge s) := by
  unfold Machine.deliverReading
  split
  · exact h
  · exact h.scaleReading v
  · split
    · exact h.scaleDone
    · exact h
  next st sig =>
    cases sig with
    | closed => exact h.closedReading st edge
    | opened =>
      dsimp only
      split
      · exact h.openedRising st
      · exact h
    | tonnage => exact h.tonnageReading st v
    | hold => exact h.holdEvent st
    | ejectPos => exact h.posReading st v
    | ejectForce => exact h.forceReading st v

theorem Keeps.deliverFault (h : Keeps k s0 s) (t : Target) : Keeps k s0 (deliverFault t s) := by
  unfold Machine.deliverFault
  split
  · exact h.countFault _ _
  · split
    · exact h.judgeGate _
    · exact h.judgeGate _
    · exact h
  · exact h

theorem Keeps.deliverStale (h : Keeps k s0 s) (t : Target) : Keeps k s0 (deliverStale t s) := by
  unfold Machine.deliverStale
  split
  · exact h.countFault _ _
  · exact h.clearWindow
  · exact h
  next st sig =>
    cases sig with
    | closed => exact h.judgeGate st
    | tonnage => exact h.judgeGate st
    | opened => exact h
    | hold => exact h.holdEvent st
    | ejectPos => exact h.ejectorStale st
    | ejectForce => exact h.ejectorStale st

theorem Keeps.modEntry (h : Keeps k s0 s) (i : Fin 96) (f : MapEntry → MapEntry) : Keeps k s0 (modEntry i f s) :=
  h.quiet _ rfl rfl rfl rfl rfl rfl rfl

theorem Keeps.judgeStale (h : Keeps k s0 s) : Keeps k s0 (judgeStale s) := h.setLevel _ _

theorem Keeps.takeEntry (h : Keeps .work s0 s) (i : Fin 96) (c : MapConfig) (e : SampleEntry) :
    Keeps .work s0 (takeEntry i c e s) := by
  unfold Machine.takeEntry
  split
  · exact (h.modEntry i _).deliverFault _
  · exact (h.modEntry i _).deliverFault _
  · exact ((h.modEntry i _).judgeStale).deliverReading _ _ _

theorem Keeps.sampleEntry (h : Keeps .work s0 s) (node : Nat) (e : SampleEntry) :
    Keeps .work s0 (sampleEntry node e s) := by
  unfold Machine.sampleEntry
  split
  · split
    · exact (h.takeEntry _ _ _).event
    · exact h
  · exact h

theorem Keeps.takeSample (h : Keeps .work s0 s) (f : Frame) : Keeps .work s0 (takeSample f s) := by
  unfold Machine.takeSample
  split
  · exact h
  · exact h.foldl _ (fun e _ h => (h.sampleEntry _ e).arbitrate) _

theorem Keeps.entryGoesStale (h : Keeps k s0 s) (i : Fin 96) : Keeps k s0 (entryGoesStale i s) := by
  unfold Machine.entryGoesStale
  split
  · split
    · exact ((h.modEntry i _).judgeStale).deliverStale _
    · exact h
  · exact h

end Sys2Proof.Machine
end

section
/-! PROOFS. What every command keeps: the ring, the tables, the configuration image, the requests and every command. -/

namespace Sys2Proof.Machine

open Sys2Proof

variable {k : Phase} {s0 s : Block}

/-! ### The Ring Port Unit (chapter 1) -/

/-- A port changed: outside the link commands its link state stays. -/
theorem Keeps.setPort (h : Keeps k s0 s) (p : Port) (x : PortState) (hx : k = .link ∨ x.link = (portOf s p).link) :
    Keeps k s0 (setPort p x s) := by
  cases p with
  | inp =>
    refine ⟨fun hk hp => ?_, h.queues, h.slots, h.cycles, h.control⟩
    exact ⟨(hx.resolve_left hk).trans (h.links hk hp).1, (h.links hk hp).2⟩
  | out =>
    refine ⟨fun hk hp => ?_, h.queues, h.slots, h.cycles, h.control⟩
    exact ⟨(h.links hk hp).1, (hx.resolve_left hk).trans (h.links hk hp).2⟩

theorem queueSound_nil : queueSound [] := by
  refine ⟨List.nodup_nil, by simp, fun st => by simp, by simp⟩

theorem Keeps.flushOut (h : Keeps k s0 s) : Keeps k s0 (flushOut s) where
  links := h.links
  queues h0 := by
    obtain ⟨-, h2, h3, -, h5⟩ := h.queues h0
    exact ⟨Nat.zero_le _, h2, h3, Nat.zero_le _, h5⟩
  slots := h.slots
  cycles := h.cycles
  control h0 := by
    obtain ⟨-, ht, hz⟩ := (controlSound_iff s).mp (h.control h0)
    exact (controlSound_iff _).mpr ⟨queueSound_nil, ht, hz⟩

theorem Keeps.signalPresent (h : Keeps .link s0 s) (p : Port) (v : Bool) : Keeps .link s0 (signalPresent p v s) := by
  unfold Machine.signalPresent
  simp only
  split
  all_goals exact h.setPort _ _ (.inl rfl)

theorem Keeps.trainingDisturbed (h : Keeps k s0 s) (p : Port) (d : Disturbance) :
    Keeps k s0 (trainingDisturbed p d s) := by
  unfold Machine.trainingDisturbed
  split
  · exact h.setPort _ _ (.inr rfl)
  · exact h

theorem Keeps.cleanTimeDone (h : Keeps .link s0 s) (p : Port) : Keeps .link s0 (cleanTimeDone p s) := by
  unfold Machine.cleanTimeDone
  split
  · exact (h.setPort _ _ (.inl rfl)).setLevel _ _
  · exact h

theorem Keeps.trainingLost (h : Keeps .link s0 s) (p : Port) : Keeps .link s0 (trainingLost p s) := by
  unfold Machine.trainingLost
  split
  · exact h.setPort _ _ (.inl rfl)
  · exact h

theorem Keeps.linkLost (h : Keeps .link s0 s) (p : Port) (signal : Bool) : Keeps .link s0 (linkLost p signal s) := by
  unfold Machine.linkLost
  simp only
  split
  · have lost := ((h.setPort p { link := .down, reception := if signal = true then .signal else .noSignal, cleanTime := 0 }
      (.inl rfl)).countDisconnect).setLevel (portCond p) true
    cases p
    · exact lost
    · exact lost.flushOut
  · exact h

theorem Keeps.forward (h : Keeps k s0 s) (f : Frame) : Keeps k s0 (forward f s) := by
  unfold Machine.forward
  split
  next hroom =>
    rw [Bool.and_eq_true, decide_eq_true_eq] at hroom
    refine ⟨h.links, fun h0 => ?_, h.slots, h.cycles, h.control⟩
    obtain ⟨-, h2, h3, h4, h5⟩ := h.queues h0
    exact ⟨by simpa using Nat.succ_le_of_lt hroom.2, h2, h3, h4, h5⟩
  next => exact h.countFwdDrop

theorem Keeps.enqueueRequest (h : Keeps k s0 s) (r : Request) : Keeps k s0 (enqueueRequest r s) := by
  unfold Machine.enqueueRequest
  split
  next hroom =>
    refine ⟨h.links, fun h0 => ?_, h.slots, h.cycles, h.control⟩
    obtain ⟨h1, h2, -, h4, h5⟩ := h.queues h0
    exact ⟨h1, h2, by simpa using Nat.succ_le_of_lt hroom, h4, h5⟩
  next => exact h.countReqDrop

theorem Keeps.consume (h : Keeps .work s0 s) (f : Frame) : Keeps .work s0 (consume f s) := by
  unfold Machine.consume
  split
  · exact h.enqueueRequest _
  · split
    · exact h.takeSample _
    · exact h.countWrongKind

theorem Keeps.passOn (h : Keeps .work s0 s) (f : Frame) : Keeps .work s0 (passOn f s) := by
  unfold Machine.passOn
  split
  · exact (h.forward f).arbitrate.takeSample f
  · exact h.forward f

theorem Keeps.routeFrame (h : Keeps .work s0 s) (f : Frame) : Keeps .work s0 (routeFrame f s) := by
  unfold Machine.routeFrame
  split
  · exact h.countReturned
  · split
    · exact h.countHopExpired
    · split
      · exact h.consume f
      · exact h.passOn f

theorem Keeps.receive (h : Keeps .work s0 s) (f : RxFrame) : Keeps .work s0 (receive f s) := by
  have heard : Keeps .work s0 (heard f s) := by
    unfold Machine.heard
    split
    · exact h
    · exact h.setPort .inp _ (.inr rfl)
  unfold Machine.receive
  split
  · simp only
    split
    · exact heard.countRxFrames.routeFrame _
    · exact heard.countCrcErr
  · exact h

theorem Keeps.transmitDone (h : Keeps k s0 s) : Keeps k s0 (transmitDone s) := by
  unfold Machine.transmitDone
  split
  · refine Keeps.countTxFrames ?_
    exact ⟨h.links, h.queues, h.slots, h.cycles, h.control⟩
  · exact h

theorem Keeps.joinEvent (h : Keeps k s0 s) : Keeps k s0 (joinEvent s) := by
  unfold Machine.joinEvent
  split
  next hw =>
    simp only [Bool.and_eq_true, decide_eq_true_eq] at hw
    have joined := h.joinInfo { dest := byteOf s.tab.line.master, kind := kindEvent, payload := eventPayload s } hw.2
    exact joined.quiet _ rfl rfl rfl rfl rfl rfl rfl
  next => exact h

theorem Keeps.joinPart (h : Keeps .collect s0 s) : Keeps .collect s0 (joinPart s) := by
  unfold Machine.joinPart
  split
  · exact h.serveCollection
  · exact h

/-! ### The tables (chapter 3) -/

theorem Keeps.thenMove (h : Keeps k s0 s) (st : Station) : Keeps k s0 (thenMove st s) := (h.moveTargets st).event

theorem Keeps.lowerCeiling (h : Keeps k s0 s) (z : Fin 32) (c : Nat) : Keeps k s0 (lowerCeiling z c s) := by
  have lowered := h.modZone_idle z (ceiledZone c) fun x ⟨h1, h2, h3, h4⟩ => ⟨h1, h2, h3, by simp [ceiledZone, h4]⟩
  unfold Machine.lowerCeiling
  simp only
  split
  · exact lowered
  next hg =>
    have on : ZoneOn k s0 s z := h.zoneOn fun hi => hg (by simp [ceiledZone, hi.2.2.2])
    exact (on.of_keeps lowered rfl).postDuty.keeps

/-- What a change of the Zone Table and the zones leaves to be shown. -/
theorem Keeps.rezoned (h : Keeps k s0 s) (t : Block) (hrpu : t.rpu = { s.rpu with ownAddress := t.rpu.ownAddress })
    (hreq : t.mga.requests = s.mga.requests) (hslots : t.hst.slots = s.hst.slots)
    (hcore : ∀ st, coreOf (stcOf t st) = coreOf (stcOf s st)) (hdms : t.dms = s.dms)
    (hok : zoneTableOk t.tab.zones = true)
    (hz : zonesSound s.tab.zones s.zrg.zones → zonesSound t.tab.zones t.zrg.zones) : Keeps k s0 t where
  links := by rw [hrpu]; exact h.links
  queues := by unfold queuesFit; rw [hrpu, hreq]; exact h.queues
  slots := by rw [hslots]; exact h.slots
  cycles h0 := by
    refine (cycleSound_iff t).mpr fun st => ?_
    exact stationSound_of_core (hcore st) (by rw [dmsOf, hdms]; rfl) ((cycleSound_iff s).mp (h.cycles h0) st)
  control h0 := by
    obtain ⟨hq, -, hs⟩ := (controlSound_iff s).mp (h.control h0)
    refine (controlSound_iff t).mpr ⟨?_, hok, hz hs⟩
    rw [hrpu]
    exact hq

theorem coreOf_inBand (st : Station) (v : Vector Bool 32 → Vector Bool 32) (s : Block) (st' : Station) :
    coreOf (stcOf (modStc st (fun c => { c with inBand := v c.inBand }) s) st') = coreOf (stcOf s st') := by
  rw [stcOf_modStc]
  split
  next e => subst e; rfl
  next => rfl

theorem coreOf_enableZone (z : Fin 32) (s : Block) (st : Station) :
    coreOf (stcOf (enableZone z s) st) = coreOf (stcOf s st) :=
  coreOf_inBand (entryOf s z).station (fun v => vset v z false) _ st

theorem coreOf_disableZone (z : Fin 32) (s : Block) (st : Station) :
    coreOf (stcOf (disableZone z s) st) = coreOf (stcOf s st) :=
  coreOf_inBand (entryOf s z).station (fun v => vset v z false) _ st

/-- A zone written in the Zone Table and in its context, so that it idles where it is not enabled. -/
theorem zonesSound_vset {t : Vector ZoneEntry 32} {v : Vector Zone 32} (z : Fin 32) (e : ZoneEntry) (x : Zone)
    (h : zonesSound t v) (hx : e.enabled = false → zoneIdle x) : zonesSound (vset t z e) (vset v z x) := by
  intro i hi
  rw [vget_vset] at hi ⊢
  by_cases hz : z = i
  · rw [if_pos hz] at hi ⊢
    exact hx hi
  · rw [if_neg hz] at hi ⊢
    exact h i hi

theorem entryOf_putZone (z : Fin 32) (e : ZoneEntry) (s : Block) : entryOf (putZone z e s) z = e := by
  simp [entryOf, putZone]

theorem Keeps.zoneWritten (h : Keeps k s0 s) (z : Fin 32) (e : ZoneEntry)
    (hok : zoneTableOk (vset s.tab.zones z e) = true) :
    Keeps k s0 (zoneWritten z (entryOf s z) e (putZone z e s)) := by
  have stored : Keeps k s0 (if (entryOf s z).enabled = e.enabled then putZone z e s
      else if e.enabled then enableZone z (putZone z e s) else disableZone z (putZone z e s)) := by
    split
    next he =>
      refine h.rezoned _ rfl rfl rfl (fun _ => rfl) rfl hok fun hz => ?_
      have hsame : vset s.zrg.zones z (zoneOf s z) = s.zrg.zones := vset_vget _ _
      change zonesSound (vset s.tab.zones z e) s.zrg.zones
      rw [← hsame]
      exact zonesSound_vset z e _ hz fun hd => hz z (he.trans hd)
    next =>
      split
      next he =>
        refine h.rezoned _ rfl rfl rfl (coreOf_enableZone z _) rfl hok fun hz => ?_
        exact zonesSound_vset z e _ hz fun hd => absurd (he.symm.trans hd) (by simp)
      next =>
        refine h.rezoned _ rfl rfl rfl (coreOf_disableZone z _) rfl hok fun hz => ?_
        exact zonesSound_vset z e _ hz fun _ => ⟨rfl, rfl, rfl, rfl⟩
  unfold Machine.zoneWritten
  generalize (if (entryOf s z).enabled = e.enabled then putZone z e s
      else if e.enabled then enableZone z (putZone z e s) else disableZone z (putZone z e s)) = x at stored
  have lowered : Keeps k s0 (if e.dutyCeiling < (entryOf s z).dutyCeiling then Machine.lowerCeiling z e.dutyCeiling x
      else x) := by
    split
    · exact stored.lowerCeiling _ _
    · exact stored
  simp only
  split
  · exact lowered.budgetEvent
  · exact lowered

theorem Keeps.writeZone (h : Keeps k s0 s) (z : Fin 32) (bs : List Byte) : Keeps k s0 (writeZone z bs s).2 := by
  unfold Machine.writeZone
  split
  · exact h
  · split
    · exact h
    · split
      · exact h
      next hok => exact (h.zoneWritten z _ (by simpa using hok)).event

theorem Keeps.moveBound (h : Keeps k s0 s) (i : Fin 16) (st : Station) : Keeps k s0 (moveBound i st s) := by
  unfold Machine.moveBound
  split
  · exact h.thenMove st
  · exact h

theorem Keeps.writeRecipe (h : Keeps k s0 s) (i : Fin 16) (bs : List Byte) : Keeps k s0 (writeRecipe i bs s).2 := by
  unfold Machine.writeRecipe
  split
  · exact h
  next r _ =>
    have stored : Keeps k s0 (putRecipe i { r with revision := ((vget s.tab.recipes i).revision + 1) % 256 } s) :=
      h.quiet _ rfl rfl rfl rfl rfl rfl rfl
    exact ((stored.testStations.event).moveBound i .a).moveBound i .b

theorem Keeps.writeStep (h : Keeps k s0 s) (i : Fin 64) (bs : List Byte) : Keeps k s0 (writeStep i bs s).2 := by
  unfold Machine.writeStep
  split
  · exact h
  next e _ =>
    have stored : Keeps k s0 { s with tab := { s.tab with steps := vset s.tab.steps i e } } :=
      h.quiet _ rfl rfl rfl rfl rfl rfl rfl
    exact stored.testStations.event

theorem Keeps.writeStation (h : Keeps k s0 s) (st : Station) (bs : List Byte) :
    Keeps k s0 (writeStation st bs s).2 := by
  unfold Machine.writeStation
  split
  · exact h
  · exact h.quiet _ rfl rfl rfl rfl rfl rfl rfl

theorem Keeps.putLine (h : Keeps k s0 s) (e : LineSettings) : Keeps k s0 (putLine e s) :=
  ⟨h.links, h.queues, h.slots, h.cycles, h.control⟩

theorem Keeps.lineWritten (h : Keeps k s0 s) (o : LineSettings) : Keeps k s0 (lineWritten o s) := by
  have cleared : ∀ b : Bool, Keeps k s0 (if b then Machine.clearWindow (Machine.judgeHigh s) else Machine.judgeHigh s) := by
    intro b
    split
    · exact h.judgeHigh.clearWindow
    · exact h.judgeHigh
  exact (cleared _).judgeOverload.evalIfLoading.budgetEvent

theorem Keeps.writeLine (h : Keeps k s0 s) (bs : List Byte) : Keeps k s0 (writeLine bs s).2 := by
  unfold Machine.writeLine
  split
  · exact h
  next e _ =>
    have written : Keeps k s0 (Machine.lineWritten s.tab.line (Machine.putLine e s)) := (h.putLine e).lineWritten _
    dsimp only
    exact Keeps.event written

theorem Keeps.rewriteEntry (h : Keeps k s0 s) (i : Fin 96) (c : Option MapConfig) : Keeps k s0 (rewriteEntry i c s) := by
  have stored := (h.modEntry i fun _ => neverEntry c).judgeStale
  unfold Machine.rewriteEntry
  simp only
  split
  · split
    · exact stored.deliverStale _
    · exact stored
  · exact stored

theorem Keeps.writeMap (h : Keeps k s0 s) (i : Fin 96) (bs : List Byte) : Keeps k s0 (writeMap i bs s).2 := by
  unfold Machine.writeMap
  split
  · exact h
  · split
    · exact (h.rewriteEntry i _).event
    · exact h

theorem Keeps.writeEntry (h : Keeps k s0 s) (t : TableId) (i : Int) (bs : List Byte) :
    Keeps k s0 (writeEntry t i bs s).2 := by
  unfold Machine.writeEntry
  split
  · split
    · exact h.writeZone _ _
    · exact h
  · split
    · exact h.writeRecipe _ _
    · exact h
  · split
    · exact h.writeStep _ _
    · exact h
  · split
    · exact h.writeStation _ _
    · exact h
  · split
    · exact h.writeLine _
    · exact h
  · split
    · exact h.writeMap _ _
    · exact h

theorem Keeps.writeEntries (t : TableId) (d : Int) (n : Nat) (i : Int) (bs : List Byte) (w : Nat) (h : Keeps k s0 s) :
    Keeps k s0 (writeEntries t d n i bs w s).2.2 := by
  induction n generalizing i bs w s with
  | zero => exact h
  | succ n ih =>
    unfold Machine.writeEntries
    simp only
    split
    · exact ih _ _ _ (h.writeEntry t i _).arbitrate
    · exact h.writeEntry t i _

/-! ### The configuration image (R190, R191) -/

/-- Every zone of a list takes up its entry: of the stations only the in-band record changes, and the zones that are not
enabled idle. -/
theorem zoneTakesUp_foldl (l : List (Fin 32)) (s : Block) :
    let b := l.foldl (fun s z => zoneTakesUp z s) s
    b = { s with stc := b.stc, zrg := b.zrg, pwa := b.pwa } ∧
      (∀ st, coreOf (stcOf b st) = coreOf (stcOf s st)) ∧
      ∀ z, z ∈ l ∨ zoneIdle (zoneOf s z) → (entryOf s z).enabled = false → zoneIdle (zoneOf b z) := by
  induction l generalizing s with
  | nil => exact ⟨rfl, fun _ => rfl, fun z hz _ => hz.resolve_left (by simp)⟩
  | cons a l ih =>
    have one : zoneTakesUp a s = { s with stc := (zoneTakesUp a s).stc, zrg := (zoneTakesUp a s).zrg
                                          pwa := (zoneTakesUp a s).pwa } ∧
        (∀ st, coreOf (stcOf (zoneTakesUp a s) st) = coreOf (stcOf s st)) ∧
        ∀ z, z = a ∨ zoneIdle (zoneOf s z) → (entryOf s z).enabled = false → zoneIdle (zoneOf (zoneTakesUp a s) z) := by
      have idle (x : Zone) (hx : (entryOf s a).enabled = false → zoneIdle x) (z : Fin 32)
          (hz : z = a ∨ zoneIdle (zoneOf s z)) (hd : (entryOf s z).enabled = false) :
          zoneIdle (vget (vset s.zrg.zones a x) z) := by
        rw [vget_vset]
        by_cases e : a = z
        · subst e; rw [if_pos rfl]; exact hx hd
        · rw [if_neg e]; exact hz.resolve_left (Ne.symm e)
      unfold zoneTakesUp
      split
      next he =>
        exact ⟨rfl, coreOf_enableZone a s, idle _ fun hd => absurd (he.symm.trans hd) (by simp)⟩
      next => exact ⟨rfl, coreOf_disableZone a s, idle _ fun _ => ⟨rfl, rfl, rfl, rfl⟩⟩
    obtain ⟨o1, o2, o3⟩ := one
    obtain ⟨i1, i2, i3⟩ := ih (zoneTakesUp a s)
    have htab : (zoneTakesUp a s).tab = s.tab := by rw [o1]
    rw [List.foldl_cons]
    refine ⟨?_, fun st => (i2 st).trans (o2 st), fun z hz hd => i3 z ?_ (by rw [entryOf, htab]; exact hd)⟩
    · generalize l.foldl (fun s z => zoneTakesUp z s) (zoneTakesUp a s) = b at i1 ⊢
      rw [i1, o1]
    · rcases hz with hz | hz
      · rcases List.mem_cons.mp hz with rfl | hz
        · exact .inr (o3 _ (.inl rfl) hd)
        · exact .inl hz
      · exact .inr (o3 z (.inr hz) hd)

theorem zoneTableOk_default : zoneTableOk (Vector.replicate 32 defaultZoneEntry) = true := by decide

theorem zoneTableOk_loadZones (bs : List Byte) : zoneTableOk (loadZones bs) = true := by
  have fold : ∀ (l : List (Fin 32)) (t : Vector ZoneEntry 32), zoneTableOk t = true →
      zoneTableOk (l.foldl (loadZone bs) t) = true := by
    intro l
    induction l with
    | nil => exact fun _ h => h
    | cons z l ih =>
      intro t ht
      refine ih _ ?_
      unfold loadZone
      split
      · split
        next hok => exact hok
        next => exact ht
      · exact ht
  exact fold _ _ zoneTableOk_default

theorem Keeps.imageLoaded (h : Keeps k s0 s) (answers : Bool) : Keeps k s0 (imageLoaded answers s) := by
  unfold Machine.imageLoaded
  split
  · simp only
    generalize hx : ({ takeImage (foundImage s.mga.memory answers) s with
      mga := { (takeImage (foundImage s.mga.memory answers) s).mga with image := .ready }
      rpu := { (takeImage (foundImage s.mga.memory answers) s).rpu with
        ownAddress := (takeImage (foundImage s.mga.memory answers) s).tab.line.own } } : Block) = x
    have e : x = { s with tab := x.tab, cdu := x.cdu, mga := x.mga
                          rpu := { s.rpu with ownAddress := x.rpu.ownAddress } } := by
      subst hx; simp [takeImage]
    have ereq : x.mga.requests = s.mga.requests := by subst hx; simp [takeImage]
    have eok : zoneTableOk x.tab.zones = true := by
      subst hx
      simp only [takeImage, setLevel_tab]
      split
      · exact zoneTableOk_loadZones _
      · exact zoneTableOk_default
    obtain ⟨b1, b2, b3⟩ := zoneTakesUp_foldl allZones x
    have taken : Keeps k s0 (allZones.foldl (fun s z => zoneTakesUp z s) x) := by
      generalize allZones.foldl (fun s z => zoneTakesUp z s) x = b at b1 b2 b3
      have etab : b.tab = x.tab := by rw [b1]
      refine h.rezoned b ?_ ?_ ?_ (fun st => (b2 st).trans ?_) ?_ ?_ fun _ z hz => ?_
      · rw [b1, e]
      · rw [b1]; exact ereq
      · rw [b1, e]
      · rw [e]; rfl
      · rw [b1, e]
      · rw [etab]; exact eok
      · exact b3 z (.inl (by simp [allZones])) (by rw [entryOf, ← etab]; exact hz)
    exact (taken.budgetEvent.startBudget.modStc .a _).modStc .b _
  · exact h

theorem Keeps.imageStored (h : Keeps k s0 s) (completed : Bool) : Keeps k s0 (imageStored completed s) := by
  unfold Machine.imageStored
  split
  · split
    · exact ((h.quiet { s with mga := { s.mga with image := .ready, memory := .image s.mga.storeCopy } }).setLevel _
        _).latchCond _
    · exact (h.quiet { s with mga := { s.mga with image := .ready } }).setLevel _ _
  · exact h

/-! ### The resets (R190, R192) -/

theorem stationSound_reset : stationSound resetStc resetDms := ⟨rfl, rfl, rfl, .inl rfl⟩

theorem cycleSound_powerOnBlock (m : ConfigMemory) (c : Nat) : cycleSound (powerOnBlock m c) := by
  intro st
  cases st <;> exact stationSound_reset

theorem zonesSound_reset : zonesSound defaultTables.zones resetZrg.zones := by
  intro z _
  have e : vget resetZrg.zones z = resetZone .disabled defaultZoneEntry := by simp [resetZrg, vget]
  rw [e]
  exact ⟨rfl, rfl, rfl, rfl⟩

theorem controlSound_powerOnBlock (m : ConfigMemory) (c : Nat) : controlSound (powerOnBlock m c) :=
  (controlSound_iff _).mpr ⟨queueSound_nil, zoneTableOk_default, zonesSound_reset⟩

theorem queuesFit_powerOnBlock (m : ConfigMemory) (c : Nat) : queuesFit (powerOnBlock m c) := by
  simp [queuesFit, countersFit, powerOnBlock, resetRpu, zeroCounters]

theorem Keeps.powerOnReset (s : Block) : Keeps .powerOn s0 (powerOnReset s) :=
  ⟨fun _ h => absurd rfl h, fun _ => queuesFit_powerOnBlock _ _, fun _ h => absurd rfl h,
    fun _ => cycleSound_powerOnBlock _ _, fun _ => controlSound_powerOnBlock _ _⟩

theorem Keeps.restarted (h : Keeps .restart s0 s) : Keeps .restart s0 (restarted s) where
  links := h.links
  queues h0 := by
    obtain ⟨h1, -, -, h4, h5⟩ := h.queues h0
    exact ⟨h1, Nat.zero_le _, Nat.zero_le _, h4, h5⟩
  slots hk := absurd rfl hk
  cycles _ := cycleSound_powerOnBlock s.mga.memory s.choices
  control _ := (controlSound_iff _).mpr ⟨queueSound_nil, zoneTableOk_default, zonesSound_reset⟩

/-! ### Requests (chapter 10) -/

theorem Keeps.answer (q : Sender) (code : Nat) {a : Answer} (h : Keeps k s0 a.after) : Keeps k s0 (answer q code a) :=
  h.reply _ _ _ _

theorem Keeps.accept (h : Keeps k s0 s) : Keeps k s0 (accept s).after := h

theorem Keeps.acceptEvent {f : Block → Block} (h : Keeps k s0 (f s)) : Keeps k s0 (Machine.accept (Machine.event f s)).after :=
  h.event

theorem Keeps.serve (h : Keeps k s0 s) (q : Sender) (code : Nat) (cls : RequestClass) (form : Bool)
    {owner : Block → Answer} (ho : Keeps k s0 (owner s).after) : Keeps k s0 (serve q code cls form owner s) := by
  unfold Machine.serve
  split
  · exact Keeps.answer _ _ h
  · exact Keeps.answer _ _ ho

theorem Keeps.whenTaken (h : Keeps k s0 s) (r : Request) {act : Block → Block}
    (ha : ∀ s, Keeps k s0 s → Keeps k s0 (act s)) : Keeps k s0 (whenTaken r act s) := by
  unfold Machine.whenTaken takeRequest
  split
  next s1 h1 =>
    refine ha s1 ?_
    split at h1
    · cases h1; exact h
    next x rest hq =>
      split at h1
      · cases h1
        refine ⟨h.links, fun h0 => ?_, h.slots, h.cycles, h.control⟩
        obtain ⟨q1, q2, q3, q4⟩ := h.queues h0
        rw [hq] at q3
        exact ⟨q1, q2, (Nat.le_succ _).trans q3, q4⟩
      · cases h1
  next => exact h

theorem Keeps.forStation (h : Keeps k s0 s) (sb : Byte) {act : Station → Block → Answer}
    (ha : ∀ st, Keeps k s0 (act st s).after) : Keeps k s0 (forStation sb act s).after := by
  unfold Machine.forStation
  split
  · exact ha _
  · exact h

theorem Keeps.serveStation (q : Sender) (sb : Byte) {act : Station → Block → Answer}
    (ha : ∀ st s, Keeps k s0 s → Keeps k s0 (act st s).after) (s : Block) (h : Keeps k s0 s) :
    Keeps k s0 (serveStation q sb act s) :=
  h.serve _ _ _ _ (h.forStation sb fun st => ha st s h)

theorem Keeps.serveTableWrite (h : Keeps k s0 s) (q : Sender) (body : List Byte) :
    Keeps k s0 (serveTableWrite q body s) := by
  have owned : ∀ t, Keeps k s0 (ownTableWrite t body s).after := by
    intro t
    unfold ownTableWrite
    split
    · exact h
    · split
      · exact h
      · exact Keeps.writeEntries _ _ _ _ _ _ h
  unfold Machine.serveTableWrite
  simp only
  split
  · exact Keeps.answer _ _ h
  · split
    · exact Keeps.answer _ _ h
    · split
      · exact Keeps.answer _ _ h
      · split
        · exact Keeps.answer _ _ h
        · split
          · exact Keeps.answer _ _ h
          · exact Keeps.answer _ _ (owned _)

theorem Keeps.serveTableRead (h : Keeps k s0 s) (q : Sender) (body : List Byte) :
    Keeps k s0 (serveTableRead q body s) := by
  unfold Machine.serveTableRead
  split
  · exact Keeps.answer _ _ h
  · split
    · exact Keeps.answer _ _ h
    · split
      · exact Keeps.answer _ _ h
      · exact h.serve _ _ _ _ h

theorem Keeps.ownBind (arg : Byte) (st : Station) (s : Block) (h : Keeps k s0 s) :
    Keeps k s0 (ownBind arg st s).after := by
  have bound : ∀ i, isCycleState (stateOf s st) = false → Keeps k s0 (bindEffect st i s) := by
    intro i hs
    have noted : Keeps k s0 (Machine.modStc st (fun c => { c with bound := some i }) s) := h.modStc st _
    have heated := noted.modStc_outside (st := st) (by rw [stcOf_modStc_self]; exact hs)
      (fun c => { c with state := .preheat, heatReady := false, settle := none }) rfl rfl rfl rfl
    unfold bindEffect
    simp only
    split
    · exact (heated.setNoCycle st _).startSettle st
    · exact (heated.setNoCycle st _).startSettle st
    · exact noted
  unfold Machine.ownBind
  split
  · exact h
  next hs =>
    split
    · exact h
    · split
      · exact h
      · exact Keeps.accept (Keeps.thenMove (Keeps.event (bound _ (by simpa using hs))) st)

theorem Keeps.ownWake (st : Station) (s : Block) (h : Keeps k s0 s) : Keeps k s0 (ownWake st s).after := by
  unfold Machine.ownWake
  split
  · exact h
  next ha =>
    split
    · exact h.modStc st (fun c => { c with deferredWake := true })
    · refine Keeps.acceptEvent (h.enterHeat ?_)
      rw [Bool.not_eq_true, Bool.not_eq_false', wakeAllowed, Bool.and_eq_true, Bool.and_eq_true, Bool.or_eq_true,
        decide_eq_true_iff, decide_eq_true_iff] at ha
      obtain ⟨⟨e | e, -⟩, -⟩ := ha
      all_goals rw [stateOf] at e; rw [e]; rfl

theorem Keeps.ownStandby (st : Station) (s : Block) (h : Keeps k s0 s) : Keeps k s0 (ownStandby st s).after := by
  unfold Machine.ownStandby stateOf
  split
  next e => exact Keeps.acceptEvent (h.goStandby (by rw [e]; rfl))
  next e => exact Keeps.acceptEvent (h.goStandby (by rw [e]; rfl))
  next e => exact Keeps.acceptEvent (h.goStandby (by rw [e]; rfl))
  next => exact h.modStc st (fun c => { c with deferredWake := false })
  next => exact h

theorem Keeps.ownOff (st : Station) (s : Block) (h : Keeps k s0 s) : Keeps k s0 (ownOff st s).after := by
  unfold Machine.ownOff stateOf
  split
  next e => exact Keeps.acceptEvent (h.goOff (by rw [e]; rfl))
  next e => exact Keeps.acceptEvent (h.goOff (by rw [e]; rfl))
  next e => exact Keeps.acceptEvent (h.goOff (by rw [e]; rfl))
  next => exact h.modStc st (fun c => { c with deferredWake := false })
  next => exact h

theorem Keeps.ownProduce (st : Station) (s : Block) (h : Keeps k s0 s) : Keeps k s0 (ownProduce st s).after := by
  unfold Machine.ownProduce
  split
  · exact h
  · have flagged : Keeps k s0 (Machine.modStc st (fun c => { c with production := true }) s) := h.modStc st _
    exact Keeps.acceptEvent (flagged.cycleOpenTest st)

theorem Keeps.ownStop (st : Station) (s : Block) (h : Keeps k s0 s) : Keeps k s0 (ownStop st s).after := by
  have flagged : Keeps k s0 (Machine.modStc st (fun c => { c with production := false }) s) := h.modStc st _
  exact Keeps.accept (flagged.setNoCycle st .none)

theorem Keeps.ownAbort (st : Station) (s : Block) (h : Keeps .work s0 s) : Keeps .work s0 (ownAbort st s).after := by
  have aborted : Keeps .work s0 (abortEffect st s) := by
    unfold abortEffect stateOf
    split
    next e => exact h.endFromCharging st (by simp [e])
    next e => exact h.endFromPressLoad st (by simp [e])
    next e => exact (h.setFlag st _).enterOpening st (by rw [stcOf_setFlag]; exact e)
    next => exact h.setFlag st _
    next e =>
      have atWork : AtWork .work s0 (Machine.setFlag st .aborted s) st :=
        ⟨h.setFlag st _, fun _ => by rw [stcOf_setFlag]; exact .inl e⟩
      exact atWork.abortDms.keeps
    next => exact h
  unfold Machine.ownAbort
  split
  case h_6 => exact Keeps.acceptEvent aborted
  all_goals exact h

theorem Keeps.ownZoneRecover (arg : Byte) (st : Station) (s : Block) (h : Keeps k s0 s) :
    Keeps k s0 (ownZoneRecover arg st s).after := by
  unfold Machine.ownZoneRecover
  split
  · exact h
  · split
    · exact h
    · exact Keeps.event (f := fun s => (Machine.recoverZone _ s).2) (h.recoverZone _)

theorem Keeps.leftHeld (h : Keeps k s0 s) {st : Station} (e : stateOf s st = .held) :
    AtWork k s0 (leaveHeld st s) st :=
  AtWork.leaveHeld ⟨h, fun _ => .inr e⟩

theorem Keeps.ownRelease (st : Station) (s : Block) (h : Keeps k s0 s) : Keeps k s0 (ownRelease st s).after := by
  unfold Machine.ownRelease
  split
  next e => exact Keeps.acceptEvent (h.leftHeld e).releaseDms.keeps
  next => exact h

theorem Keeps.ownDemouldReset (st : Station) (s : Block) (h : Keeps k s0 s) :
    Keeps k s0 (ownDemouldReset st s).after := by
  unfold Machine.ownDemouldReset
  split
  next e => exact Keeps.acceptEvent (h.leftHeld e).resetSequencer.keeps
  next => exact h

theorem Keeps.ownTare (h : Keeps k s0 s) : Keeps k s0 (ownTare s).after := by
  unfold Machine.ownTare
  split
  · exact h
  · split
    · exact h
    · exact Keeps.accept (h.modScu _)

theorem Keeps.ownZero (h : Keeps k s0 s) : Keeps k s0 (ownZero s).after := by
  have zeroed : Keeps k s0 (putScaleZero (meanRaw s) s) := h.quiet _ rfl rfl rfl rfl rfl rfl rfl
  unfold Machine.ownZero
  split
  · exact h
  · split
    · exact h
    · split
      · exact h
      · simp only
        split
        · exact h
        · exact Keeps.acceptEvent zeroed.clearWindow

theorem Keeps.ownCancel (sb : Byte) (h : Keeps .work s0 s) : Keeps .work s0 (ownCancel sb s).after := by
  have claim : ∀ st s, Keeps .work s0 s → Keeps .work s0 (cancelClaim st s) := by
    intro st s h
    unfold cancelClaim
    split
    · exact Keeps.arbitrate (Keeps.event ((h.withdrawClaim st).cancelled st))
    · exact h
  have session : ∀ st s, Keeps .work s0 s → Keeps .work s0 (cancelSession st s) := by
    intro st s h
    unfold cancelSession
    split
    · split
      · exact Keeps.arbitrate (Keeps.event (((h.cutSession _).cancelled st).grantOldest))
      · exact h
    · exact h
  unfold Machine.ownCancel
  split
  · exact h
  · split
    · exact Keeps.foldl (h.foldl (fun s st => cancelClaim st s) claim _) (fun s st => cancelSession st s) session _
    · exact h

theorem Keeps.ownClearConditions (body : List Byte) (h : Keeps k s0 s) :
    Keeps k s0 (ownClearConditions body s).after := by
  have cleared : ∀ u : Cdu, Keeps k s0 { s with cdu := u } := fun _ => h.quiet _ rfl rfl rfl rfl rfl rfl rfl
  unfold Machine.ownClearConditions
  simp only
  split
  · exact h
  · exact cleared _

theorem Keeps.ownSetMask (body : List Byte) (h : Keeps k s0 s) : Keeps k s0 (ownSetMask body s).after := by
  unfold Machine.ownSetMask
  split
  · exact h
  · exact h.quiet _ rfl rfl rfl rfl rfl rfl rfl

theorem Keeps.ownForce (body : List Byte) (h : Keeps k s0 s) : Keeps k s0 (ownForce body s).after := by
  unfold Machine.ownForce
  split
  · exact h
  · exact h.latch _

theorem Keeps.modHst_slots (h : Keeps k s0 s) (f : Hst → Hst) (hf : (f s.hst).slots = s.hst.slots) :
    Keeps k s0 (Machine.modHst f s) := Keeps.modHst h f fun _ _ i => by rw [hf]; exact .refl _ _

theorem Keeps.ownSetBase (body : List Byte) (h : Keeps k s0 s) : Keeps k s0 (ownSetBase body s).after := by
  unfold Machine.ownSetBase
  simp only
  split
  · exact h
  · split
    · exact h
    · split
      · exact h
      · have based := h.modHst_slots (fun x => { x with counter := some (field body 0 4) }) rfl
        exact (based.setLevel .recordBaseUnset false).testStations.event

theorem Keeps.ownSetTime (body : List Byte) (h : Keeps k s0 s) : Keeps k s0 (ownSetTime body s).after := by
  have timed : ∀ t : Stamp, Keeps k s0 (Machine.modHst (fun x => { x with lineTime := some t }) s) :=
    fun _ => h.modHst_slots _ rfl
  unfold Machine.ownSetTime
  split
  · exact h
  · exact Keeps.accept (timed _)

theorem Keeps.serveCollect (q : Sender) (body : List Byte) (h : Keeps .collect s0 s) :
    Keeps .collect s0 (serveCollect q body s) := by
  unfold Machine.serveCollect
  split
  · exact Keeps.answer _ _ h
  · simp only
    split
    · exact Keeps.answer _ _ h
    · split
      · exact Keeps.answer _ _ h
      · unfold beginCollection
        exact Keeps.serveCollection (h.modHst_slots _ rfl)

theorem Keeps.ownReleaseRecords (body : List Byte) (h : Keeps (.release (field body 0 4)) s0 s) :
    Keeps (.release (field body 0 4)) s0 (ownReleaseRecords body s).after := by
  refine Keeps.event ?_
  have freed := h.freeSent.endCollection
  unfold releaseEffect
  simp only
  split
  · exact freed
  · exact freed.judgeFull.judgeHigh.testStations

theorem Keeps.ownStoreImage (h : Keeps k s0 s) : Keeps k s0 (ownStoreImage s).after := by
  unfold Machine.ownStoreImage
  split
  · exact h
  · exact h.quiet _ rfl rfl rfl rfl rfl rfl rfl

theorem Keeps.ownRestart (force : Bool) (h : Keeps .restart s0 s) : Keeps .restart s0 (ownRestart force s).after := by
  unfold Machine.ownRestart
  split
  · exact h
  · split
    · exact h
    · exact h.restarted

theorem Keeps.ownUnknown (code : Byte) (body : List Byte) (h : Keeps k s0 s) :
    Keeps k s0 (ownUnknown code body s).after := by
  unfold Machine.ownUnknown
  split
  · exact h.forStation _ fun _ => h
  · exact h

theorem Keeps.ownReadStatus (body : List Byte) (h : Keeps k s0 s) : Keeps k s0 (ownReadStatus body s).after := by
  unfold Machine.ownReadStatus
  split
  · exact h
  · exact h
  · split <;> exact h

/-! ### Timers -/

theorem Keeps.whenRunning (h : Keeps k s0 s) (t : Block → Timer) {act : Block → Block}
    (ha : (t s).isSome = true → Keeps k s0 (act s)) : Keeps k s0 (whenRunning t act s) := by
  unfold Machine.whenRunning
  split
  next hr => exact (ha hr).event
  next => exact h

theorem Keeps.accrualDone (h : Keeps k s0 s) (st : Station) : Keeps k s0 (accrualDone st s) := by
  unfold Machine.accrualDone
  split
  next hs _ =>
    split
    · refine (h.modCycle st _).enterOpening st ?_
      exact (congrArg Prod.fst (coreOf_modCycle st _ s)).trans hs
    · exact h
  next => exact h

theorem Keeps.maxCureDone (h : Keeps k s0 s) (st : Station) : Keeps k s0 (maxCureDone st s) := by
  unfold Machine.maxCureDone
  split
  next hs _ =>
    split
    · refine ((h.modCycle st _).setFlag st _).enterOpening st ?_
      rw [stcOf_setFlag]
      exact (congrArg Prod.fst (coreOf_modCycle st _ s)).trans hs
    · exact h
  next => exact h

theorem Keeps.allowancePassed (h : Keeps k s0 s) (st : Station) : Keeps k s0 (allowancePassed st s) := by
  unfold Machine.allowancePassed
  split
  · split
    · exact (h.modCycle st _).setFlag st _
    · exact h
  · exact h

theorem Keeps.blindExpired (h : Keeps k s0 s) (z : Fin 32) : Keeps k s0 (blindExpired z s) := by
  unfold Machine.blindExpired
  split
  next e => exact (h.zoneOn fun hi => by rw [hi.1] at e; cases e).enterFault _
  next => exact h

theorem Keeps.loadingTimeout (h : Keeps .work s0 s) : Keeps .work s0 (loadingTimeout s) := by
  unfold Machine.loadingTimeout
  split
  · exact Keeps.deliverOutcome (h.rejectAttempt _ _ _)
  · exact h

theorem tickPort_link (p : PortState) : (tickPort p).link = p.link := by
  unfold tickPort
  split <;> rfl

theorem stcOf_tick (s : Block) (st : Station) : stcOf (tick s) st = tickStc (stcOf s st) := by
  cases st <;> rfl

theorem dmsOf_tick (s : Block) (st : Station) : dmsOf (tick s) st = tickDms (dmsOf s st) := by
  cases st <;> rfl

theorem coreOf_tickStc (c : Stc) : coreOf (tickStc c) = coreOf c := by
  simp [coreOf, tickStc]

theorem tick_zones (s : Block) : (tick s).tab.zones = s.tab.zones := by simp only [tick]

theorem tick_zrg (s : Block) : (tick s).zrg.zones = vmap tickZone s.zrg.zones := by simp only [tick]

theorem zonesSound_tick {t : Vector ZoneEntry 32} {v : Vector Zone 32} (h : zonesSound t v) :
    zonesSound t (vmap tickZone v) := by
  intro z he
  obtain ⟨h1, h2, h3, h4⟩ := h z he
  rw [vget_vmap]
  exact ⟨h1, congrArg tickTimer h2, congrArg tickTimer h3, h4⟩

/-- One millisecond keeps everything (log 1). -/
theorem Keeps.tick (h : Keeps k s0 s) : Keeps k s0 (tick s) where
  links hk hp := ⟨(tickPort_link _).trans (h.links hk hp).1, (tickPort_link _).trans (h.links hk hp).2⟩
  queues h0 := by
    obtain ⟨h1, h2, h3, h4, h5⟩ := h.queues h0
    exact ⟨h1, h2, h3, h4, h5⟩
  slots := h.slots
  cycles h0 := (cycleSound_iff _).mpr fun st => by
    rw [stcOf_tick, dmsOf_tick]
    exact stationSound_of_core (coreOf_tickStc _) rfl ((cycleSound_iff s).mp (h.cycles h0) st)
  control h0 := by
    obtain ⟨hq, ht, hz⟩ := (controlSound_iff s).mp (h.control h0)
    rw [controlSound_iff, tick_zones, tick_zrg]
    exact ⟨hq, ht, zonesSound_tick hz⟩

/-! ### Every command -/

/-- The phase of a command. -/
def phaseOf : Instr → Phase
  | .powerOn => .powerOn
  | .linkSignalPresent _ _ | .linkCleanTimeExpiry _ | .linkTrainingSignalLoss _ | .linkLoss _ _ => .link
  | .partFrameJoin | .collect _ _ => .collect
  | .release _ body => .release (field body 0 4)
  | .restart _ | .restartForce _ => .restart
  | _ => .work

theorem finish_keeps {f : Block → Block} {s t : State} (he : finish f s = .next t)
    (h : ∀ s, Keeps k s0 s → Keeps k s0 (f s)) (h0 : Keeps k s0 s.toBlock) : Keeps k s0 t.toBlock := by
  cases he
  exact (h _ h0).arbitrate

/-- Every command keeps what its phase allows. -/
theorem exec_keeps {c : Instr} {s t : State} (he : exec c s = .next t) :
    Keeps (phaseOf c) s.toBlock t.toBlock := by
  have start := Keeps.refl (phaseOf c) s.toBlock
  cases c
  case powerOn => exact finish_keeps he (fun s _ => .powerOnReset s) start
  case linkSignalPresent p v => exact finish_keeps he (fun _ h => h.signalPresent p v) start
  case linkTrainingDisturbed p d => exact finish_keeps he (fun _ h => h.trainingDisturbed p d) start
  case linkCleanTimeExpiry p => exact finish_keeps he (fun _ h => h.cleanTimeDone p) start
  case linkTrainingSignalLoss p => exact finish_keeps he (fun _ h => h.trainingLost p) start
  case linkLoss p g => exact finish_keeps he (fun _ h => h.linkLost p g) start
  case frameReceived f => exact finish_keeps he (fun _ h => h.receive f) start
  case frameTransmitComplete => exact finish_keeps he (fun _ h => h.transmitDone) start
  case eventFrameJoin => exact finish_keeps he (fun _ h => h.joinEvent) start
  case partFrameJoin => exact finish_keeps he (fun _ h => h.joinPart) start
  case sampleEntryStale i => exact finish_keeps he (fun _ h => (h.entryGoesStale i).event) start
  case shortRequestDiscard src payload =>
    refine finish_keeps he (fun _ h => ?_) start
    split
    · exact h.whenTaken _ fun _ h => h
    · exact h
  case unknownRequest q code body =>
    refine finish_keeps he (fun _ h => ?_) start
    split
    · exact h.whenTaken _ fun _ h => h.serve _ _ _ _ (h.ownUnknown code body)
    · exact h
  case readId => exact finish_keeps he (fun _ h => h.whenTaken _ fun _ h => h.serve _ _ _ _ h) start
  case tableWrite => exact finish_keeps he (fun _ h => h.whenTaken _ fun _ h => h.serveTableWrite _ _) start
  case tableRead => exact finish_keeps he (fun _ h => h.whenTaken _ fun _ h => h.serveTableRead _ _) start
  case bindRecipe q sb arg =>
    exact finish_keeps he (fun _ h => h.whenTaken _ (Keeps.serveStation q sb (Keeps.ownBind arg))) start
  case wake q sb _ => exact finish_keeps he (fun _ h => h.whenTaken _ (Keeps.serveStation q sb Keeps.ownWake)) start
  case standby q sb _ =>
    exact finish_keeps he (fun _ h => h.whenTaken _ (Keeps.serveStation q sb Keeps.ownStandby)) start
  case off q sb _ => exact finish_keeps he (fun _ h => h.whenTaken _ (Keeps.serveStation q sb Keeps.ownOff)) start
  case produce q sb _ =>
    exact finish_keeps he (fun _ h => h.whenTaken _ (Keeps.serveStation q sb Keeps.ownProduce)) start
  case stop q sb _ => exact finish_keeps he (fun _ h => h.whenTaken _ (Keeps.serveStation q sb Keeps.ownStop)) start
  case abortCycle q sb _ =>
    exact finish_keeps he (fun _ h => h.whenTaken _ (Keeps.serveStation q sb Keeps.ownAbort)) start
  case zoneRecover q sb arg =>
    exact finish_keeps he (fun _ h => h.whenTaken _ (Keeps.serveStation q sb (Keeps.ownZoneRecover arg))) start
  case demouldRelease q sb _ =>
    exact finish_keeps he (fun _ h => h.whenTaken _ (Keeps.serveStation q sb Keeps.ownRelease)) start
  case demouldReset q sb _ =>
    exact finish_keeps he (fun _ h => h.whenTaken _ (Keeps.serveStation q sb Keeps.ownDemouldReset)) start
  case tare => exact finish_keeps he (fun _ h => h.whenTaken _ fun _ h => h.serve _ _ _ _ h.ownTare) start
  case zero => exact finish_keeps he (fun _ h => h.whenTaken _ fun _ h => h.serve _ _ _ _ h.ownZero) start
  case cancel q sb =>
    exact finish_keeps he (fun _ h => h.whenTaken _ fun _ h => h.serve _ _ _ _ (Keeps.ownCancel sb h)) start
  case readStatus q body =>
    exact finish_keeps he (fun _ h => h.whenTaken _ fun _ h => h.serve _ _ _ _ (Keeps.ownReadStatus body h)) start
  case readCounters => exact finish_keeps he (fun _ h => h.whenTaken _ fun _ h => h.serve _ _ _ _ h) start
  case readCountersClear =>
    exact finish_keeps he (fun _ h => h.whenTaken _ fun _ h => h.serve _ _ _ _
      (h.modCounters (fun _ => zeroCounters) fun _ _ => by simp [countersFit, zeroCounters])) start
  case readConditions => exact finish_keeps he (fun _ h => h.whenTaken _ fun _ h => h.serve _ _ _ _ h) start
  case clearConditions q body =>
    exact finish_keeps he (fun _ h => h.whenTaken _ fun _ h => h.serve _ _ _ _ (Keeps.ownClearConditions body h)) start
  case setMask q body =>
    exact finish_keeps he (fun _ h => h.whenTaken _ fun _ h => h.serve _ _ _ _ (Keeps.ownSetMask body h)) start
  case forceCondition q body =>
    exact finish_keeps he (fun _ h => h.whenTaken _ fun _ h => h.serve _ _ _ _ (Keeps.ownForce body h)) start
  case setRecordBase q body =>
    exact finish_keeps he (fun _ h => h.whenTaken _ fun _ h => h.serve _ _ _ _ (Keeps.ownSetBase body h)) start
  case setTime q body =>
    exact finish_keeps he (fun _ h => h.whenTaken _ fun _ h => h.serve _ _ _ _ (Keeps.ownSetTime body h)) start
  case historySummary => exact finish_keeps he (fun _ h => h.whenTaken _ fun _ h => h.serve _ _ _ _ h) start
  case collect q body =>
    exact finish_keeps he (fun _ h => h.whenTaken _ fun _ h => Keeps.serveCollect q body h) start
  case release q body =>
    exact finish_keeps he (fun _ h => h.whenTaken _ fun _ h => h.serve _ _ _ _ (Keeps.ownReleaseRecords body h)) start
  case storeImage => exact finish_keeps he (fun _ h => h.whenTaken _ fun _ h => h.serve _ _ _ _ h.ownStoreImage) start
  case restart =>
    exact finish_keeps he (fun _ h => h.whenTaken _ fun _ h => h.serve _ _ _ _ (Keeps.ownRestart false h)) start
  case restartForce =>
    exact finish_keeps he (fun _ h => h.whenTaken _ fun _ h => h.serve _ _ _ _ (Keeps.ownRestart true h)) start
  case imageLoadComplete a => exact finish_keeps he (fun _ h => (h.imageLoaded a).event) start
  case imageStoreEnd b => exact finish_keeps he (fun _ h => h.imageStored b) start
  case settleTimerExpiry st => exact finish_keeps he (fun _ h => h.whenRunning _ fun _ => h.settleDone st) start
  case cureAccrualComplete st => exact finish_keeps he (fun _ h => (h.accrualDone st).event) start
  case maximumCureTimeExpiry st => exact finish_keeps he (fun _ h => (h.maxCureDone st).event) start
  case outOfBandAllowanceExceeded st => exact finish_keeps he (fun _ h => (h.allowancePassed st).event) start
  case permitRefreshExpiry st => exact finish_keeps he (fun _ h => h.whenRunning _ fun _ => h.postPermit st) start
  case regulationEvent z =>
    exact finish_keeps he (fun _ h => h.whenRunning _ fun hr =>
      (h.zoneOn fun hi => by rw [hi.2.1] at hr; cases hr).regulation) start
  case blindHoldExpiry z => exact finish_keeps he (fun _ h => h.whenRunning _ fun _ => h.blindExpired z) start
  case budgetPeriodExpiry => exact finish_keeps he (fun _ h => h.whenRunning _ fun _ => h.startBudget.budgetEvent) start
  case stableDwellExpiry => exact finish_keeps he (fun _ h => h.whenRunning _ fun _ => h.capture) start
  case loadingTimerExpiry => exact finish_keeps he (fun _ h => h.whenRunning _ fun _ => h.loadingTimeout) start
  case stepTimerExpiry st => exact finish_keeps he (fun _ h => h.whenRunning _ fun _ => h.stepExpiry st) start
  case dwellTimerExpiry st => exact finish_keeps he (fun _ h => h.whenRunning _ fun _ => h.dwellExpiry st) start

/-- What a step keeps, whichever command or millisecond it is. -/
theorem step_keeps {s t : State} (he : step s = .next t) : ∃ k, Keeps k s.toBlock t.toBlock := by
  unfold step at he
  split at he
  next c rest _ => exact ⟨phaseOf c, exec_keeps (s := { s with pending := rest }) he⟩
  next =>
    split at he
    next c _ => exact ⟨phaseOf c, exec_keeps he⟩
    next => cases he; exact ⟨.work, (Keeps.refl .work s.toBlock).tick⟩

/-! ### The obligations -/

theorem phaseOf_of_isReset {c : Instr} (hc : isReset c = false) : phaseOf c ≠ .restart ∧ phaseOf c ≠ .powerOn := by
  cases c
  case powerOn | restart | restartForce => exact Bool.noConfusion hc
  all_goals exact ⟨nofun, nofun⟩

theorem eq_release_of_phaseOf {c : Instr} {n : Nat} (h : phaseOf c = .release n) :
    ∃ q body, c = .release q body ∧ field body 0 4 = n := by
  cases c
  case release q body => cases h; exact ⟨q, body, rfl, rfl⟩
  all_goals cases h

/-- Settles O57: the records of `exec_keeps`, whose phase is a release of the number that the body names. -/
theorem recordsKept : Obligations.RecordsKept := by
  intro c s t hc he i
  have hslot : slotMoves (phaseOf c) (vget s.hst.slots i) (vget t.hst.slots i) := by
    exact (exec_keeps he).slots (phaseOf_of_isReset hc).1 (phaseOf_of_isReset hc).2 i
  unfold slotKept
  split
  · trivial
  next r hr =>
    rw [hr] at hslot
    obtain ⟨r', ⟨hn, hs, hf⟩, hnew⟩ := hslot
    exact ⟨r', hnew.imp_right And.right, hn, hs, hf⟩
  next r hr =>
    rw [hr] at hslot
    exact hslot.imp_right And.right
  next r hr =>
    rw [hr] at hslot
    refine hslot.imp_right fun ⟨n, hk, hle, hnew⟩ => ⟨?_, hnew⟩
    obtain ⟨q, body, hc, rfl⟩ := eq_release_of_phaseOf hk
    exact ⟨q, body, hc, hle⟩

/-- Settles O58: the stations of `step_keeps`. -/
theorem cycleInvariantKept : Obligations.CycleInvariantKept := by
  intro s t hs he
  obtain ⟨k, h⟩ := step_keeps he
  exact h.cycles hs

/-- Settles O59: the control queue and zones of `step_keeps`; a bounded queue holds at most 12 frames. -/
theorem controlQueueBounded : Obligations.ControlQueueBounded := by
  intro s t hs he
  obtain ⟨k, h⟩ := step_keeps he
  have ht := h.control hs
  exact ⟨ht, length_le_of_queueSound ((controlSound_iff _).mp ht).1⟩

/-- Settles O56: the queues of `step_keeps`. -/
theorem queuesStayWithinCapacity : Obligations.QueuesStayWithinCapacity := by
  intro s t hs he
  obtain ⟨k, h⟩ := step_keeps he
  exact h.queues hs

/-- Settles O11: the links of `exec_keeps`; only POWER_ON and the link commands have a phase that moves them. -/
theorem linkStatesKept : Obligations.LinkStatesKept := by
  intro c s t he
  have h := (exec_keeps he).links
  cases c
  case powerOn => exact .inl rfl
  case linkSignalPresent p v => exact .inr (.inl ⟨p, v, rfl⟩)
  case linkCleanTimeExpiry p => exact .inr (.inr (.inl ⟨p, rfl⟩))
  case linkTrainingSignalLoss p => exact .inr (.inr (.inr (.inl ⟨p, rfl⟩)))
  case linkLoss p g => exact .inr (.inr (.inr (.inr (.inl ⟨p, g, rfl⟩))))
  all_goals exact .inr (.inr (.inr (.inr (.inr (h nofun nofun)))))

/-- Settles O60: reset is power-on with a memory without an image. -/
theorem invariantsAtReset : Obligations.InvariantsAtReset :=
  ⟨queuesFit_powerOnBlock _ _, cycleSound_powerOnBlock _ _, controlSound_powerOnBlock _ _, by
    intro i; simp [State.reset, powerOnBlock, resetHst, vget]⟩

end Sys2Proof.Machine
end

section
/-! PROOFS. The machine and its requests: steps, takes, judgements and the answers of the requests that change no owner's
state (chapter 10). -/

namespace Sys2Proof.Machine

open Sys2Proof

/-! ### Steps -/

/-- Settles O1: the queue's two cases are the two cases of `step`. -/
theorem stepRunsFrontCommand : Obligations.StepRunsFrontCommand := by
  intro s c rest h
  simp only [step, h]

/-- Settles O3: every command is `finish` of an effect. -/
theorem everyCommandCompletes : Obligations.EveryCommandCompletes := by
  intro c s
  cases c
  all_goals exact ⟨_, rfl⟩

/-- A command ends with what its effect makes of the blocks. -/
theorem finish_eq {f : Block → Block} {s : State} {x : Block} (h : f s.toBlock = x) :
    finish f s = .next (s.closing x) := by
  rw [← h]
  rfl

/-! ### Takes (R182) -/

theorem takeRequest_front {r : Request} {rest : List Request} {s : Block} (h : s.mga.requests = r :: rest) :
    takeRequest r s = some { s with mga := { s.mga with requests := rest } } := by
  simp [takeRequest, h]

theorem takeRequest_empty {r : Request} {s : Block} (h : s.mga.requests = []) : takeRequest r s = some s := by
  simp [takeRequest, h]

theorem takeRequest_behind {r x : Request} {rest : List Request} {s : Block} (h : s.mga.requests = x :: rest)
    (hx : x ≠ r) : takeRequest r s = none := by
  simp [takeRequest, h, hx]

/-- A request that is taken is acted on. -/
theorem finish_taken {r : Request} {s : State} {s1 : Block} (h : takeRequest r s.toBlock = some s1)
    (act : Block → Block) : finish (whenTaken r act) s = .next (s.closing (act s1)) := by
  simp [finish, whenTaken, h, State.closing]

/-- A request that stands behind another changes nothing. -/
theorem finish_notTaken {r : Request} {s : State} (h : takeRequest r s.toBlock = none) (act : Block → Block) :
    finish (whenTaken r act) s = .next (s.closing s.toBlock) := by
  simp [finish, whenTaken, h, State.closing]

/-- The effect of a request command is that of its take, or nothing where the command cannot occur. -/
theorem exec_of_requestOf {c : Instr} {r : Request} (h : requestOf c = some r) (s : State) :
    (∃ act, exec c s = finish (whenTaken r act) s) ∨ exec c s = .next (s.closing s.toBlock) := by
  cases c
  case shortRequestDiscard src payload =>
    cases h
    change (∃ act, execShortRequestDiscard src payload s = _) ∨ execShortRequestDiscard src payload s = _
    unfold execShortRequestDiscard
    split
    · exact .inl ⟨_, rfl⟩
    · exact .inr rfl
  case unknownRequest q code body =>
    cases h
    change (∃ act, execUnknownRequest q code body s = _) ∨ execUnknownRequest q code body s = _
    unfold execUnknownRequest
    split
    · exact .inl ⟨_, rfl⟩
    · exact .inr rfl
  all_goals cases h
  all_goals exact .inl ⟨_, rfl⟩

/-- Settles O6, by the queue that the take finds. -/
theorem requestTakeFromFront : Obligations.RequestTakeFromFront := by
  refine ⟨fun _ _ _ => takeRequest_front, fun _ _ => takeRequest_empty, fun _ _ _ _ => takeRequest_behind, ?_⟩
  intro c r s hr ht
  obtain ⟨act, he⟩ | he := exec_of_requestOf hr s
  · rw [he, finish_notTaken ht]
  · exact he

/-! ### Judgements (R183) -/

section Judgement

variable {q : Sender} {code : Nat} {cls : RequestClass} {owner : Block → Answer} {s : Block}

theorem serve_loading (form : Bool) (h : s.mga.image = .loading) :
    serve q code cls form owner s = reply q code .busy [] s := by
  simp [serve, judgeRequest, h, answer, refuse]

theorem serve_misformed (h : s.mga.image ≠ .loading) : serve q code cls false owner s = reply q code .badRequest [] s := by
  simp [serve, judgeRequest, h, answer, refuse]

theorem serve_refused (h : s.mga.image ≠ .loading) (hm : masterAdmits s q.src = false) :
    serve q code .write true owner s = reply q code .refused [] s := by
  simp [serve, judgeRequest, h, hm, answer, refuse]

theorem serve_read (h : s.mga.image ≠ .loading) : serve q code .read true owner s = answer q code (owner s) := by
  simp [serve, judgeRequest, h]

theorem serve_write (h : s.mga.image ≠ .loading) (hm : masterAdmits s q.src = true) :
    serve q code .write true owner s = answer q code (owner s) := by
  simp [serve, judgeRequest, h, hm]

theorem masterAdmits_eq_false (src : Byte) :
    masterAdmits s src = false ↔ s.tab.line.master ≠ 255 ∧ src.toNat ≠ s.tab.line.master := by
  simp [masterAdmits]

end Judgement

/-! ### Replies (R17, R24) -/

/-- Settles O8: the two cases of `postReply`. -/
theorem replyJoinsOrIsDropped : Obligations.ReplyJoinsOrIsDropped := by
  intro q code st body s
  refine ⟨fun h => ?_, fun h => ?_⟩
  · exact if_pos h
  · exact if_neg (Nat.not_lt.mpr h)

/-! ### Posts while OUT is not UP (R4) -/

theorem postControl_of_not_up {s : Block} (h : s.rpu.outPort.link ≠ .up) (f : List ControlFrame → List ControlFrame) :
    postControl f s = s := by
  simp [postControl, outUp, h]

/-- Settles O19: every post is a `postControl`. -/
theorem postsDiscardedWhileDown : Obligations.PostsDiscardedWhileDown := by
  intro s h
  refine ⟨fun z => postControl_of_not_up h _, fun st o => postControl_of_not_up h _, fun n => postControl_of_not_up h _,
    fun st => ?_⟩
  unfold postPermit
  simp only [postControl_of_not_up h]
  rfl

/-! ### Condition levels (R187) -/

theorem condBit_getLsbD (k j : Nat) (hj : j < 23) : (condBit k).getLsbD j = decide (j = k) := by
  have e : (1#23).getLsbD (j - k) = decide (j - k = 0) := by simp
  rw [condBit, BitVec.getLsbD_shiftLeft, e]
  by_cases hk : j = k
  · simp [hk]; omega
  · by_cases hlt : j < k
    · simp [hlt, hk]
    · have : j - k ≠ 0 := by omega
      simp [hk, this]

theorem setBit_getLsbD (v : BitVec 23) (k j : Nat) (on : Bool) (hj : j < 23) :
    (setBit v k on).getLsbD j = if j = k then on else v.getLsbD j := by
  cases on
  · simp only [setBit, Bool.false_eq_true, if_false, BitVec.getLsbD_and, BitVec.getLsbD_not, condBit_getLsbD _ _ hj, hj,
      decide_true, Bool.true_and]
    by_cases h : j = k <;> simp [h]
  · simp only [setBit, if_true, BitVec.getLsbD_or, condBit_getLsbD _ _ hj]
    by_cases h : j = k <;> simp [h]

/-- Settles O54: the two sets of `setLevel_spec`, bit by bit. -/
theorem conditionLevels : Obligations.ConditionLevels := by
  intro c on s
  refine ⟨fun k hk => ?_, fun k hk => ?_, ?_⟩
  · rw [setLevel_spec]
    exact setBit_getLsbD _ _ _ _ hk
  · rw [setLevel_spec]
    have rise : (setBit s.cdu.latched (condNum c) true).getLsbD k =
        (s.cdu.latched.getLsbD k || decide (k = condNum c)) := by
      rw [setBit_getLsbD _ _ _ _ hk]
      by_cases h : k = condNum c <;> simp [h]
    by_cases h : k = condNum c
    · subst h
      cases on <;> cases hp : s.cdu.present.getLsbD (condNum c) <;> simp [rise]
    · split <;> simp [h, rise]
  · rw [setLevel_spec]

end Sys2Proof.Machine
end

section
/-! PROOFS. Requests as commands and what judges them (chapter 10): decode and encode, the checks in their order, the
requests without a row, and the read requests of the Management Agent, the RPU and the Condition Unit. -/

namespace Sys2Proof.Machine

open Sys2Proof

/-! ### Requests as commands (R24, R183) -/

theorem byteOf_toNat (c : Byte) : byteOf c.toNat = c := by simp [byteOf]

theorem eq_byteOf {c : Byte} {n : Nat} (h : c.toNat = n) : c = byteOf n := by rw [← h, byteOf_toNat]

/-- A code whose decoder reads only the rest of the body is written back with the same code. -/
theorem requestOf_decodeStation (q : Sender) (body : List Byte) :
    requestOf (decodeStation q body) = some (mgmtRequest q codeStation body) := by
  unfold decodeStation
  split
  next st cmd arg =>
    split
    case h_11 => rfl
    all_goals
      rename_i h
      exact congrArg (fun x => some (mgmtRequest q codeStation [st, x, arg])) (eq_byteOf h).symm
  next => rfl

theorem requestOf_decodeScale (q : Sender) (body : List Byte) :
    requestOf (decodeScale q body) = some (mgmtRequest q codeScale body) := by
  unfold decodeScale
  split
  next cmd st =>
    split
    case h_4 => rfl
    all_goals
      rename_i h
      exact congrArg (fun x => some (mgmtRequest q codeScale [x, st])) (eq_byteOf h).symm
  next => rfl

theorem requestOf_decodeCounters (q : Sender) (body : List Byte) :
    requestOf (decodeCounters q body) = some (mgmtRequest q codeReadCounters body) := by
  unfold decodeCounters
  split
  next opt =>
    split
    case h_3 => rfl
    all_goals
      rename_i h
      exact congrArg (fun x => some (mgmtRequest q codeReadCounters [x])) (eq_byteOf h).symm
  next => rfl

theorem requestOf_decodeRestart (q : Sender) (body : List Byte) :
    requestOf (decodeRestart q body) = some (mgmtRequest q codeRestart body) := by
  unfold decodeRestart
  split
  next opt =>
    split
    case h_3 => rfl
    all_goals
      rename_i h
      exact congrArg (fun x => some (mgmtRequest q codeRestart [x])) (eq_byteOf h).symm
  next => rfl

theorem requestOf_decodeCode (q : Sender) (code : Byte) (body : List Byte) :
    requestOf (decodeCode q code body) = some { src := q.src, payload := q.tag :: code :: body } := by
  unfold decodeCode
  split
  case h_19 => rfl
  all_goals rename_i h
  case h_4 => rw [requestOf_decodeStation, eq_byteOf h]; rfl
  case h_5 => rw [requestOf_decodeScale, eq_byteOf h]; rfl
  case h_7 => rw [requestOf_decodeCounters, eq_byteOf h]; rfl
  case h_18 => rw [requestOf_decodeRestart, eq_byteOf h]; rfl
  all_goals rw [eq_byteOf h]; rfl

theorem requestOf_decodeRequest (r : Request) : requestOf (decodeRequest r) = some r := by
  obtain ⟨src, payload⟩ := r
  match payload with
  | [] => rfl
  | [_] => rfl
  | tag :: code :: body => exact requestOf_decodeCode { src := src, tag := tag } code body

/-- Settles O5: an unknown request is one that decodes to itself; every other command by its code. -/
theorem requestDecodeEncode : Obligations.RequestDecodeEncode := by
  refine ⟨fun i r hw hr => ?_, requestOf_decodeRequest⟩
  cases i
  case shortRequestDiscard src payload =>
    cases hr
    have hlen : payload.length < 2 := by simpa [wellFormed, shortFits] using hw
    match payload, hlen with
    | [], _ => rfl
    | [b], _ => rfl
  case unknownRequest q code body =>
    cases hr
    have hd : decodeCode q code body = .unknownRequest q code body := by
      simp only [wellFormed, unknownFits, Bool.and_eq_true, decide_eq_true_eq] at hw
      exact hw.2
    exact hd
  all_goals cases hr
  all_goals rfl

/-! ### Checks 2 to 4 of R183 -/

/-- What the checks of R183 make of a request that is served, by what judges it. -/
def judgedSo (j : Judged) (noTable : Bool) (s1 x : Block) : Prop :=
  (s1.mga.image = .loading → x = reply j.sender j.code .busy j.refusal s1) ∧
    (s1.mga.image ≠ .loading → noTable = true → x = reply j.sender j.code .badIndex j.refusal s1) ∧
    (s1.mga.image ≠ .loading → noTable = false → j.form = false →
      x = reply j.sender j.code .badRequest j.refusal s1) ∧
    (s1.mga.image ≠ .loading → noTable = false → j.form = true → j.cls = .write → s1.tab.line.master ≠ 255 →
      j.sender.src.toNat ≠ s1.tab.line.master → x = reply j.sender j.code .refused j.refusal s1)

theorem judgedSo_serve (q : Sender) (code : Nat) (cls : RequestClass) (form : Bool) (owner : Block → Answer)
    (s1 : Block) : judgedSo (judgedAs q code cls form) false s1 (serve q code cls form owner s1) := by
  refine ⟨fun h => serve_loading _ h, fun _ h => absurd h (by simp), fun h _ hf => ?_, fun h _ hf hc h1 h2 => ?_⟩
  · change form = false at hf
    subst hf
    exact serve_misformed h
  · change form = true at hf
    change cls = .write at hc
    subst hf hc
    exact serve_refused h ((masterAdmits_eq_false _).mpr ⟨h1, h2⟩)

theorem judgedSo_serveCollect (q : Sender) (body : List Byte) (s1 : Block) :
    judgedSo (judgedAs q codeCollect .write (decide (body.length = 1))) false s1 (serveCollect q body s1) := by
  unfold serveCollect judgeRequest
  refine ⟨fun h => ?_, fun _ h => absurd h (by simp), fun h _ hf => ?_, fun h _ hf _ h1 h2 => ?_⟩
  · simp only [h, if_true]
    rfl
  · change decide (body.length = 1) = false at hf
    simp only [h, if_false, hf, Bool.not_false, if_true]
    rfl
  · change decide (body.length = 1) = true at hf
    have hm := (masterAdmits_eq_false (s := s1) q.src).mpr ⟨h1, h2⟩
    simp only [h, if_false, hf, hm, decide_true, Bool.not_false, Bool.not_true, Bool.and_self, Bool.false_eq_true, if_true]
    rfl

/-- A body that names no table up to 5, and one of a known form, read alike by `tableForm` and by the table's own test. -/
theorem tableOf_isSome_of_tableForm {test : TableId → Bool} {body : List Byte} (h : tableForm test body = true) :
    ∃ t, tableOf (field body 0 1) = some t ∧ test t = true := by
  unfold tableForm at h
  split at h
  next t ht => exact ⟨t, ht, h⟩
  next => cases h

theorem judgedSo_serveTableWrite (q : Sender) (body : List Byte) (s1 : Block) :
    judgedSo { sender := q, code := codeTableWrite, cls := .write, form := tableForm (fun t => writeForm t body) body
               refusal := [0] } (tableUnknown body) s1 (serveTableWrite q body s1) := by
  unfold serveTableWrite
  refine ⟨fun h => ?_, fun h hu => ?_, fun h hu hf => ?_, fun h hu hf _ h1 h2 => ?_⟩
  · simp only [h, if_true]
    rfl
  · simp only [h, if_false, hu, if_true]
    rfl
  · simp only [h, if_false, hu, Bool.false_eq_true]
    change tableForm _ body = false at hf
    unfold tableForm at hf
    split
    · rfl
    next t ht =>
      rw [ht] at hf
      change writeForm t body = false at hf
      rw [hf]
      rfl
  · obtain ⟨t, ht, hw⟩ := tableOf_isSome_of_tableForm hf
    have hm := (masterAdmits_eq_false (s := s1) q.src).mpr ⟨h1, h2⟩
    simp only [h, if_false, hu, Bool.false_eq_true, ht, hw, hm, Bool.not_true, Bool.not_false, if_true]
    rfl

theorem judgedSo_serveTableRead (q : Sender) (body : List Byte) (s1 : Block) :
    judgedSo (judgedAs q codeTableRead .read (tableForm (fun t => readForm t body) body)) (tableUnknown body) s1
      (serveTableRead q body s1) := by
  unfold serveTableRead
  refine ⟨fun h => ?_, fun h hu => ?_, fun h hu hf => ?_, fun _ _ _ hc => nomatch hc⟩
  · simp only [h, if_true]
    rfl
  · simp only [h, if_false, hu, if_true]
    rfl
  · simp only [h, if_false, hu, Bool.false_eq_true]
    change tableForm _ body = false at hf
    unfold tableForm at hf
    split
    · rfl
    next t ht =>
      rw [ht] at hf
      change readForm t body = false at hf
      rw [hf]
      exact serve_misformed h

/-- A judged request that is taken is what its checks make of it. -/
theorem exec_judged {c : Instr} {j : Judged} {r : Request} {s : State} {s1 : Block} (hj : judgedOf c = some j)
    (hr : requestOf c = some r) (hw : wellFormed c = true) (ht : takeRequest r s.toBlock = some s1) :
    ∃ x, exec c s = .next (s.closing x) ∧ judgedSo j (namesNoTable c) s1 x := by
  cases c
  case unknownRequest q code body =>
    cases hr
    cases hj
    have hd : decodeCode q code body = .unknownRequest q code body := by
      simp only [wellFormed, unknownFits, Bool.and_eq_true, decide_eq_true_eq] at hw
      exact hw.2
    refine ⟨_, ?_, judgedSo_serve _ _ _ _ (ownUnknown code body) _⟩
    change execUnknownRequest q code body s = _
    rw [execUnknownRequest, if_pos hd]
    exact finish_taken ht _
  case tableWrite q body => cases hr; cases hj; exact ⟨_, finish_taken ht _, judgedSo_serveTableWrite _ _ _⟩
  case tableRead q body => cases hr; cases hj; exact ⟨_, finish_taken ht _, judgedSo_serveTableRead _ _ _⟩
  case collect q body => cases hr; cases hj; exact ⟨_, finish_taken ht _, judgedSo_serveCollect _ _ _⟩
  all_goals cases hj
  all_goals cases hr
  all_goals exact ⟨_, finish_taken ht _, judgedSo_serve _ _ _ _ _ _⟩

/-- Settles O7, by `exec_judged`. -/
theorem requestJudgedInOrder : Obligations.RequestJudgedInOrder := by
  intro c j r s s1 hj hr hw ht
  obtain ⟨x, hx, h1, h2, h3, h4⟩ := exec_judged hj hr hw ht
  rw [hx]
  refine ⟨fun h => ?_, fun h hn => ?_, fun h hn hf => ?_, fun h hn hf hc hm hs => ?_⟩
  · rw [h1 h]
  · rw [h2 h hn]
  · rw [h3 h hn hf]
  · rw [h4 h hn hf hc hm hs]

end Sys2Proof.Machine
end

section
/-! PROOFS. The requests of the Management Agent, the RPU, the Condition Unit and the History Store that no other block takes
part in (chapters 1, 9 and 10), and the requests without a row. -/

namespace Sys2Proof.Machine

open Sys2Proof

/-! ### Fields of a body -/

theorem field_one (a : Byte) (l : List Byte) : field (a :: l) 0 1 = a.toNat := by simp [field, leNat]

theorem field_two (a b : Byte) (l : List Byte) : field (a :: b :: l) 0 2 = a.toNat + 256 * b.toNat := by
  simp [field, leNat]

theorem field_three (a b c : Byte) (l : List Byte) :
    field (a :: b :: c :: l) 0 3 = a.toNat + 256 * b.toNat + 65536 * c.toNat := by
  simp only [field, List.drop_zero, List.take_succ_cons, List.take_zero, leNat]
  omega

theorem field_four (a b c d : Byte) (l : List Byte) :
    field (a :: b :: c :: d :: l) 0 4 = a.toNat + 256 * b.toNat + 65536 * c.toNat + 16777216 * d.toNat := by
  simp only [field, List.drop_zero, List.take_succ_cons, List.take_zero, leNat]
  omega

theorem field_cons (a : Byte) (l : List Byte) (n size : Nat) : field (a :: l) (n + 1) size = field l n size := rfl

/-! ### Commands that end with an owner's answer -/

section Answers

variable {q : Sender} {code : Nat} {body : List Byte} {owner : Block → Answer} {s : State} {s1 : Block} {r : Request}

/-- A read-class request of the right form ends with its owner's answer. -/
theorem finish_serve_read (ht : takeRequest r s.toBlock = some s1) (h : s1.mga.image ≠ .loading) :
    finish (whenTaken r (serve q code .read true owner)) s = .next (s.closing (answer q code (owner s1))) := by
  rw [finish_taken ht, serve_read h]

/-- A write-class request of the right form from an admitted source ends with its owner's answer. -/
theorem finish_serve_write (ht : takeRequest r s.toBlock = some s1) (h : s1.mga.image ≠ .loading)
    (hm : masterAdmits s1 q.src = true) :
    finish (whenTaken r (serve q code .write true owner)) s = .next (s.closing (answer q code (owner s1))) := by
  rw [finish_taken ht, serve_write h hm]

/-- A write-class request that is admitted ends with its owner's answer. -/
theorem finish_serve_admitted (h : admitted r s.toBlock s1) (hq : q.src = r.src) :
    finish (whenTaken r (serve q code .write true owner)) s = .next (s.closing (answer q code (owner s1))) := by
  obtain ⟨ht, hi, hm⟩ := h
  rw [finish_serve_write ht hi (hq ▸ hm)]

end Answers

/-! ### Identity and counters (R20, R184) -/

/-- Settles O24. -/
theorem readIdAnswer : Obligations.ReadIdAnswer := by
  intro q s s1 ht hi
  exact finish_serve_read ht hi

theorem countCrcErr_eq (s : Block) : countCrcErr s =
    { s with
      rpu := { s.rpu with counters := { s.rpu.counters with crcErr := min (s.rpu.counters.crcErr + 1) 65535 } }
      cdu := { s.cdu with latched := s.cdu.latched ||| (1#23 <<< 17) } } := rfl

theorem countFwdDrop_eq (s : Block) : countFwdDrop s =
    { s with
      rpu := { s.rpu with counters := { s.rpu.counters with fwdDrop := min (s.rpu.counters.fwdDrop + 1) 65535 } }
      cdu := { s.cdu with latched := s.cdu.latched ||| (1#23 <<< 18) } } := rfl

theorem countReqDrop_eq (s : Block) : countReqDrop s =
    { s with
      rpu := { s.rpu with counters := { s.rpu.counters with reqDrop := min (s.rpu.counters.reqDrop + 1) 65535 } }
      cdu := { s.cdu with latched := s.cdu.latched ||| (1#23 <<< 18) } } := rfl

theorem counterBytes_eq (c : Counters) : counterBytes c =
    [c.crcErr, c.returned, c.hopExpired, c.wrongKind, c.fwdDrop, c.disconnect, c.reqDrop, c.rxFrames,
      c.txFrames].flatMap (leBytes 2) := rfl

/-- Settles O25: the counts by their equations, the two requests by their answers. -/
theorem readCountersAnswer : Obligations.ReadCountersAnswer := by
  intro q s s1
  refine ⟨countCrcErr_eq s1, countFwdDrop_eq s1, countReqDrop_eq s1, fun hi ht => ?_, fun hi ht hm => ?_⟩
  · exact finish_serve_read ht hi
  · exact finish_serve_write ht hi hm

/-! ### Station bytes (R60) -/

theorem stationOf_eq_none {n : Nat} (h : 1 < n) : stationOf n = none := by
  match n, h with
  | _ + 2, _ => rfl

/-- An admitted station command of a station byte above 1. -/
theorem station_refused {q : Sender} {sb arg : Byte} {n : Nat} {s : State} {s1 : Block}
    (h : admitted (stationRequest q sb n arg) s.toBlock s1) (act : Station → Block → Answer) (hs : 1 < sb.toNat) :
    finish (whenTaken (stationRequest q sb n arg) (serveStation q sb act)) s =
      .next (s.closing (reply q 0x04 .badIndex [] s1)) := by
  have hf : forStation sb act s1 = refuse .badIndex s1 := by rw [forStation, stationOf_eq_none hs]
  rw [finish_admitted h, serveStation, serve_admitted h q rfl, hf]
  rfl

/-- Settles O29, command by command. -/
theorem stationIndexRefused : Obligations.StationIndexRefused := by
  intro q sb arg c r s s1 hc hr ha hs
  simp only [List.mem_cons, List.not_mem_nil, or_false] at hc
  rcases hc with rfl | rfl | rfl | rfl | rfl | rfl | rfl | rfl | rfl | rfl
  all_goals
    cases hr
    exact station_refused ha _ hs

/-! ### Short and unknown requests (R24, R60, R130, R183, R184) -/

theorem mgmtRequest_toNat (q : Sender) (code : Byte) (body : List Byte) :
    mgmtRequest q code.toNat body = { src := q.src, payload := q.tag :: code :: body } := by
  rw [mgmtRequest, byteOf_toNat]

/-- An unknown request that is taken is judged as write-class, by the length its code requires. -/
theorem exec_unknownRequest {q : Sender} {code : Byte} {body : List Byte} {s : State} {s1 : Block}
    (hd : decodeCode q code body = .unknownRequest q code body)
    (ht : takeRequest (mgmtRequest q code.toNat body) s.toBlock = some s1) :
    exec (.unknownRequest q code body) s = .next (s.closing
      (serve q code.toNat .write (unknownForm code body) (ownUnknown code body) s1)) := by
  change execUnknownRequest q code body s = _
  rw [execUnknownRequest, if_pos hd]
  rw [mgmtRequest_toNat] at ht
  exact finish_taken ht _

theorem decodeStation_unknown (q : Sender) {st cmd arg : Byte} (h : cmd.toNat = 0 ∨ 10 < cmd.toNat) :
    decodeCode q 4 [st, cmd, arg] = .unknownRequest q 4 [st, cmd, arg] := by
  change decodeStation q [st, cmd, arg] = _
  unfold decodeStation
  dsimp only
  split
  case h_11 => rfl
  all_goals omega

theorem decodeScale_unknown (q : Sender) {cmd st : Byte} (h : cmd.toNat = 0 ∨ 3 < cmd.toNat) :
    decodeCode q 5 [cmd, st] = .unknownRequest q 5 [cmd, st] := by
  change decodeScale q [cmd, st] = _
  unfold decodeScale
  dsimp only
  split
  case h_4 => rfl
  all_goals omega

theorem decodeCounters_unknown (q : Sender) {opt : Byte} (h : 1 < opt.toNat) :
    decodeCode q 7 [opt] = .unknownRequest q 7 [opt] := by
  change decodeCounters q [opt] = _
  unfold decodeCounters
  dsimp only
  split
  case h_3 => rfl
  all_goals omega

theorem decodeRestart_unknown (q : Sender) {opt : Byte} (h : 1 < opt.toNat) :
    decodeCode q 0x12 [opt] = .unknownRequest q 0x12 [opt] := by
  change decodeRestart q [opt] = _
  unfold decodeRestart
  dsimp only
  split
  case h_3 => rfl
  all_goals omega

theorem decodeCode_noRow (q : Sender) {code : Byte} (body : List Byte) (h : code.toNat = 0 ∨ 0x12 < code.toNat) :
    decodeCode q code body = .unknownRequest q code body := by
  unfold decodeCode
  split
  case h_19 => rfl
  all_goals omega

/-- The form that an unknown code or option is judged by: no length is right for it (R183). -/
theorem unknownForm_eq_false {code : Byte} (body : List Byte) (h4 : code.toNat ≠ 4) (h5 : code.toNat ≠ 5)
    (h12 : code.toNat ≠ 0x12) : unknownForm code body = false := by
  simp [unknownForm, codeStation, codeScale, codeRestart, h4, h5, h12]

/-- What the owner answers of a request that names no row: BAD_REQUEST, but for a STATION_COMMAND. -/
theorem ownUnknown_eq {code : Byte} (body : List Byte) (s : Block) (h : code.toNat ≠ 4) :
    ownUnknown code body s = refuse .badRequest s := if_neg h

/-- Settles O9: each clause is `exec_unknownRequest` with its decoder and its judgement. -/
theorem shortAndUnknownRequests : Obligations.ShortAndUnknownRequests := by
  refine ⟨?_, ?_, ?_, ?_, ?_, ?_⟩
  · intro src payload s s1 hlen ht
    change execShortRequestDiscard src payload s = _
    rw [execShortRequestDiscard, if_pos hlen]
    exact finish_taken ht _
  · intro q st cmd arg s s1 hc ht hi hm
    rw [exec_unknownRequest (decodeStation_unknown q hc) ht]
    have hform : unknownForm 4 [st, cmd, arg] = true := rfl
    rw [hform, serve_write hi hm]
    have hown : ownUnknown 4 [st, cmd, arg] s1 =
        refuse (if 1 < st.toNat then .badIndex else .badRequest) s1 := by
      change forStation st _ s1 = _
      unfold forStation
      by_cases h : 1 < st.toNat
      · rw [stationOf_eq_none h, if_pos h]
      · rw [if_neg h]
        obtain h0 | h1 : st.toNat = 0 ∨ st.toNat = 1 := by omega
        · rw [h0]; rfl
        · rw [h1]; rfl
    rw [hown]
    rfl
  · intro q cmd st s s1 hc ht hi hm
    rw [exec_unknownRequest (decodeScale_unknown q hc) ht]
    have hform : unknownForm 5 [cmd, st] = true := rfl
    rw [hform, serve_write hi hm]
    rfl
  · intro q opt s s1 ho ht hi hm
    rw [exec_unknownRequest (decodeRestart_unknown q ho) ht]
    have hform : unknownForm 0x12 [opt] = true := rfl
    rw [hform, serve_write hi hm]
    rfl
  · intro q code body s s1 hc hd ht hi hm
    rw [mgmtRequest_toNat] at hd
    rw [exec_unknownRequest hd ht]
    have hform : unknownForm code body = true := by
      rcases hc with ⟨rfl, h⟩ | ⟨rfl, h⟩ | ⟨rfl, h⟩
      all_goals simp [unknownForm, codeStation, codeScale, codeRestart, h]
    rw [hform, serve_refused hi hm]
  · intro q code body s s1 hc ht hi
    have hd : decodeCode q code body = .unknownRequest q code body := by
      rcases hc with ⟨rfl, opt, rfl, ho⟩ | rfl | h
      · exact decodeCounters_unknown q ho
      · exact decodeCode_noRow q body (.inl rfl)
      · exact decodeCode_noRow q body (.inr h)
    have hform : unknownForm code body = false := by
      rcases hc with ⟨rfl, -⟩ | rfl | h
      · exact unknownForm_eq_false body (by decide) (by decide) (by decide)
      · exact unknownForm_eq_false body (by decide) (by decide) (by decide)
      · exact unknownForm_eq_false body (by omega) (by omega) (by omega)
    rw [exec_unknownRequest hd ht, hform, serve_misformed hi]

end Sys2Proof.Machine
end

section
/-! PROOFS. The line ring (chapter 1): link transitions, frames as bytes, the receive checks, the arbiter, DRIVE frames and
the EVENT frame. -/

namespace Sys2Proof.Machine

open Sys2Proof

/-! ### Driven levels, written out -/

theorem setLevel_off (c : Cond) (s : Block) : setLevel c false s =
    { s with cdu := { s.cdu with present := s.cdu.present &&& ~~~(1#23 <<< condNum c) } } := rfl

/-- A bit of a set, read by the mask that holds it alone. -/
theorem and_condBit_eq_zero (v : BitVec 23) (k : Nat) (hk : k < 23) :
    v &&& (1#23 <<< k) = 0 ↔ v.getLsbD k = false := by
  constructor
  · intro h
    have hb := congrArg (fun x => x.getLsbD k) h
    simp only [BitVec.getLsbD_and] at hb
    rw [show (1#23 <<< k).getLsbD k = true from by rw [← condBit, condBit_getLsbD _ _ hk]; simp] at hb
    simpa using hb
  · intro h
    refine BitVec.eq_of_getLsbD_eq fun j hj => ?_
    rw [BitVec.getLsbD_and, ← condBit, condBit_getLsbD _ _ hj]
    by_cases e : j = k
    · subst e; simp [h]
    · simp [e]

theorem condNum_lt (c : Cond) : condNum c < 23 := by
  cases c with
  | stationHeld st | cycleClosed st | heatFault st | noCycle st | chargeAgedSeen st => cases st <;> decide
  | _ => decide

theorem setLevel_on (c : Cond) (s : Block) : setLevel c true s =
    { s with cdu := { s.cdu with
      present := s.cdu.present ||| (1#23 <<< condNum c)
      latched := if s.cdu.present &&& (1#23 <<< condNum c) = 0 then s.cdu.latched ||| (1#23 <<< condNum c)
                 else s.cdu.latched } } := by
  rw [setLevel_spec]
  by_cases h : s.cdu.present.getLsbD (condNum c) = true
  · have hz : ¬ s.cdu.present &&& (1#23 <<< condNum c) = 0 := by
      rw [and_condBit_eq_zero _ _ (condNum_lt c), h]; decide
    rw [if_neg hz]
    simp only [h, Bool.not_true, Bool.and_false, Bool.false_eq_true, if_false]
    rfl
  · rw [Bool.not_eq_true] at h
    rw [if_pos ((and_condBit_eq_zero _ _ (condNum_lt c)).mpr h)]
    simp only [h, Bool.not_false, Bool.and_self, if_true]
    rfl

/-! ### Link transitions (R2, R4) -/

section Links

variable {p : Port} {b : Block}

/-- The mask of a port's condition. -/
def portBit (p : Port) : BitVec 23 := 1#23 <<< (match p with | .inp => 15 | .out => 16)

theorem condNum_portCond (p : Port) : 1#23 <<< condNum (portCond p) = portBit p := by cases p <;> rfl

theorem signalPresent_down (h : (portOf b p).link = .down) (v : Bool) : signalPresent p v b =
    setPort p { link := .training, reception := if v = true then .clean else .signal, cleanTime := 0 } b := by
  simp only [signalPresent, h]

theorem signalPresent_training (h : (portOf b p).link = .training) (v : Bool) : signalPresent p v b =
    setPort p { link := .training, reception := if v = true then .clean else .signal
                cleanTime := if v = true then (portOf b p).cleanTime else 0 } b := by
  simp only [signalPresent, h]

theorem signalPresent_up (h : (portOf b p).link = .up) (v : Bool) : signalPresent p v b =
    setPort p { portOf b p with reception := if v = true then .clean else .signal } b := by
  simp only [signalPresent, h]

theorem trainingDisturbed_eq (p : Port) (d : Disturbance) (b : Block) : trainingDisturbed p d b =
    if p = .out ∧ d = .nonIdleSymbol then b
    else setPort p { portOf b p with cleanTime := 0, reception := match d with
      | .invalidSymbol => .signal
      | .noSignal => .noSignal
      | .nonIdleSymbol => .clean } b := by
  cases p <;> cases d <;> rfl

theorem cleanTimeDone_training (h : (portOf b p).link = .training) : cleanTimeDone p b =
    { setPort p { link := .up, reception := .clean, cleanTime := 0 } b with
      cdu := { b.cdu with present := b.cdu.present &&& ~~~(portBit p) } } := by
  rw [cleanTimeDone, if_pos h, setLevel_off, condNum_portCond]
  cases p <;> rfl

theorem cleanTimeDone_other (h : (portOf b p).link ≠ .training) : cleanTimeDone p b = b := if_neg h

theorem trainingLost_training (h : (portOf b p).link = .training) :
    trainingLost p b = setPort p { link := .down, reception := .noSignal, cleanTime := 0 } b := if_pos h

theorem trainingLost_other (h : (portOf b p).link ≠ .training) : trainingLost p b = b := if_neg h

theorem linkLost_other (h : (portOf b p).link ≠ .up) (g : Bool) : linkLost p g b = b := if_neg h

/-- A port that loses its link from UP, before what OUT loses (R2). -/
def linkDown (p : Port) (g : Bool) (b : Block) : Block :=
  let down := setPort p { link := .down, reception := if g = true then .signal else .noSignal, cleanTime := 0 } b
  { down with
    rpu := { down.rpu with
      counters := { b.rpu.counters with disconnect := min (b.rpu.counters.disconnect + 1) 65535 } }
    cdu := { b.cdu with
      present := b.cdu.present ||| portBit p
      latched := if b.cdu.present &&& portBit p = 0 then b.cdu.latched ||| portBit p else b.cdu.latched } }

theorem linkLost_up (h : (portOf b p).link = .up) (g : Bool) : linkLost p g b = match p with
    | .inp => linkDown .inp g b
    | .out => flushOut (linkDown .out g b) := by
  unfold linkLost
  simp only [h, if_true]
  rw [setLevel_on, condNum_portCond]
  cases p <;> rfl

end Links

/-- Settles O10: each command by the link state it finds. -/
theorem linkTransitions : Obligations.LinkTransitions := by
  intro p s
  refine ⟨fun h => ⟨fun v => ?_, fun d => ?_, ?_, ?_, fun g => ?_⟩, fun h => ⟨fun v => ?_, fun d => ?_, ?_, ?_, fun g => ?_⟩,
    fun h => ⟨fun v => ?_, fun d => ?_, ?_, ?_, fun g => ?_⟩⟩
  · exact finish_eq (signalPresent_down h v)
  · exact finish_eq (trainingDisturbed_eq p d s.toBlock)
  · exact finish_eq (cleanTimeDone_other (by rw [h]; nofun))
  · exact finish_eq (trainingLost_other (by rw [h]; nofun))
  · exact finish_eq (linkLost_other (by rw [h]; nofun) g)
  · exact finish_eq (signalPresent_training h v)
  · exact finish_eq (trainingDisturbed_eq p d s.toBlock)
  · exact finish_eq (cleanTimeDone_training h)
  · exact finish_eq (trainingLost_training h)
  · exact finish_eq (linkLost_other (by rw [h]; nofun) g)
  · exact finish_eq (signalPresent_up h v)
  · exact finish_eq (trainingDisturbed_eq p d s.toBlock)
  · exact finish_eq (cleanTimeDone_other (by rw [h]; nofun))
  · exact finish_eq (trainingLost_other (by rw [h]; nofun))
  · refine finish_eq ((linkLost_up h g).trans ?_)
    cases p <;> rfl

/-! ### Frames as bytes (R5, R6, R21) -/

theorem field_at {bs : List Byte} {k : Nat} (h : k < bs.length) : field bs k 1 = (bs.getD k 0).toNat := by
  have e : bs.drop k = bs[k] :: bs.drop (k + 1) := List.drop_eq_getElem_cons h
  rw [field, e, List.getD_eq_getElem bs 0 h]
  simp only [List.take_succ_cons, List.take_zero, leNat]
  omega

theorem wellFramed_iff (f : RxFrame) : wellFramed f = true ↔ f.cutShort = false ∧ 7 ≤ f.bytes.length ∧
    f.bytes.length ≤ 127 ∧ (f.bytes.getD 4 0).toNat ≤ 120 ∧ f.bytes.length = (f.bytes.getD 4 0).toNat + 7 := by
  by_cases h : 7 ≤ f.bytes.length
  · rw [← field_at (by omega : 4 < f.bytes.length)]
    simp only [wellFramed, Bool.and_eq_true, Bool.not_eq_true', decide_eq_true_eq, and_assoc]
  · simp [wellFramed, h]

/-- The bytes of a frame: five of header, the payload, two of check. -/
theorem frameBytes_eq (f : Frame) : ∃ lo hi : Byte, hi ++ lo =
      frameCheck ([f.dest, f.src, f.kind, f.hops, BitVec.ofNat 8 f.payload.length] ++ f.payload) ∧
    frameBytes f = [f.dest, f.src, f.kind, f.hops, BitVec.ofNat 8 f.payload.length] ++ f.payload ++ [lo, hi] := by
  obtain ⟨lo, hi, hb, hw⟩ := leBytes_two_halves
    (frameCheck ([f.dest, f.src, f.kind, f.hops, BitVec.ofNat 8 f.payload.length] ++ f.payload))
  exact ⟨lo, hi, hw, by rw [frameBytes, hb]⟩

/-- Settles O13: the parts of the byte string of a frame, and the tests of `wellFramed` one by one. -/
theorem frameEncodeDecode : Obligations.FrameEncodeDecode := by
  refine ⟨fun f hp => ?_, wellFramed_iff⟩
  obtain ⟨lo, hi, hw, he⟩ := frameBytes_eq f
  have hlen : (frameBytes f).length = f.payload.length + 7 := by rw [he]; simp
  refine ⟨(wellFramed_iff _).mpr ⟨rfl, ?_⟩, ?_, ?_⟩
  · have hcount : ((frameBytes f).getD 4 0).toNat = f.payload.length := by
      rw [he]
      simp
      omega
    change 7 ≤ (frameBytes f).length ∧ (frameBytes f).length ≤ 127 ∧ ((frameBytes f).getD 4 0).toNat ≤ 120 ∧
      (frameBytes f).length = ((frameBytes f).getD 4 0).toNat + 7
    rw [hlen, hcount]
    omega
  · rw [he]
    exact (checkPasses_append_pair _ lo hi).mpr hw.symm
  · unfold frameOf
    rw [hlen, he]
    simp

/-! ### The receive checks (R7, R9, R182) -/

section Receive

variable {f : Frame} {s : Block}

theorem routeFrame_returned (h : f.src.toNat = s.rpu.ownAddress) : routeFrame f s = countReturned s := if_pos h

theorem routeFrame_hopExpired (h1 : f.src.toNat ≠ s.rpu.ownAddress) (h2 : f.hops = 0) :
    routeFrame f s = countHopExpired s := by
  rw [routeFrame, if_neg h1, if_pos h2]

theorem routeFrame_consumed (h1 : f.src.toNat ≠ s.rpu.ownAddress) (h2 : f.hops ≠ 0)
    (h3 : f.dest.toNat = s.rpu.ownAddress) : routeFrame f s = consume f s := by
  rw [routeFrame, if_neg h1, if_neg h2, if_pos h3]

theorem routeFrame_passed (h1 : f.src.toNat ≠ s.rpu.ownAddress) (h2 : f.hops ≠ 0)
    (h3 : f.dest.toNat ≠ s.rpu.ownAddress) : routeFrame f s = passOn f s := by
  rw [routeFrame, if_neg h1, if_neg h2, if_neg h3]

theorem consume_request (h : f.kind = 0x40) :
    consume f s = enqueueRequest { src := f.src, payload := f.payload } s := if_pos h

theorem consume_sample (h : f.kind = 0x10) : consume f s = takeSample f s := by
  have h4 : f.kind ≠ kindMgmt := by rw [h]; decide
  rw [consume, if_neg h4]
  exact if_pos h

theorem consume_other (h4 : f.kind ≠ 0x40) (h1 : f.kind ≠ 0x10) : consume f s = countWrongKind s := by
  exact (if_neg h4).trans (if_neg h1)

theorem enqueueRequest_room (r : Request) (h : s.mga.requests.length < 4) :
    enqueueRequest r s = { s with mga := { s.mga with requests := s.mga.requests ++ [r] } } := if_pos h

theorem enqueueRequest_full (r : Request) (h : 4 ≤ s.mga.requests.length) : enqueueRequest r s = countReqDrop s :=
  if_neg (Nat.not_lt.mpr h)

theorem passOn_forwarded (h : f.dest = 255 → f.kind ≠ 0x10) : passOn f s = forward f s :=
  if_neg fun ⟨h1, h2⟩ => h h1 h2

theorem passOn_broadcast (h1 : f.dest = 255) (h2 : f.kind = 0x10) :
    passOn f s = takeSample f (arbitrate (forward f s)) := if_pos ⟨h1, h2⟩

theorem forward_room (h1 : s.rpu.outPort.link = .up) (h2 : s.rpu.forwardQ.length < 4) : forward f s =
    { s with rpu := { s.rpu with forwardQ := s.rpu.forwardQ ++ [{ f with hops := f.hops - 1 }] } } := by
  have h : (outUp s && decide (s.rpu.forwardQ.length < Config.forwardCapacity)) = true := by
    rw [outUp, decide_eq_true h1]
    exact decide_eq_true h2
  exact if_pos h

theorem forward_dropped (h : s.rpu.outPort.link ≠ .up ∨ 4 ≤ s.rpu.forwardQ.length) : forward f s = countFwdDrop s := by
  have h : ¬ (outUp s && decide (s.rpu.forwardQ.length < Config.forwardCapacity)) = true := by
    rw [Bool.and_eq_true, outUp, decide_eq_true_eq, decide_eq_true_eq]
    intro ⟨h1, h2⟩
    exact h.elim (fun hn => hn h1) fun hn => absurd h2 (Nat.not_lt.mpr hn)
  exact if_neg h

end Receive

/-- The blocks after a string heard at IN, with IN UP (R1). -/
theorem heard_eq (f : RxFrame) (s : Block) : heard f s =
    if f.cutShort = true then s
    else { s with rpu := { s.rpu with inPort := { s.rpu.inPort with reception := .clean } } } := rfl

theorem receive_down {f : RxFrame} {s : Block} (h : s.rpu.inPort.link ≠ .up) : receive f s = s := by
  simp [receive, inUp, h]

theorem receive_bad {f : RxFrame} {s : Block} (h : s.rpu.inPort.link = .up)
    (hg : ¬ (wellFramed f = true ∧ checkPasses f.bytes = true)) : receive f s = countCrcErr (heard f s) := by
  simp [receive, inUp, h, hg]

theorem receive_good {f : RxFrame} {s : Block} (h : s.rpu.inPort.link = .up)
    (hg : wellFramed f = true ∧ checkPasses f.bytes = true) :
    receive f s = routeFrame (frameOf f.bytes) (countRxFrames (heard f s)) := by
  simp [receive, inUp, h, hg]

theorem heard_link (f : RxFrame) (s : Block) : (heard f s).rpu.inPort.link = s.rpu.inPort.link := by
  rw [heard_eq]
  split <;> rfl

/-- Settles O14: the string heard, then check by check. -/
theorem receiveChecks : Obligations.ReceiveChecks := by
  intro f s b g good counted own forMe onward
  have hlink : b.rpu.inPort.link = s.rpu.inPort.link := by
    simp only [b]
    split <;> rfl
  have ends : ∀ x, receive f s.toBlock = x → exec (.frameReceived f) s = .next (s.closing x) := fun _ => finish_eq
  refine ⟨fun hd => ?_, fun hu => ?_⟩
  · have hb : b = s.toBlock := if_pos (.inr (hlink ▸ hd))
    rw [hb]
    exact ends _ (receive_down (hlink ▸ hd))
  have hup : s.rpu.inPort.link = .up := hlink ▸ hu
  have hb : b = heard f s.toBlock := by
    simp only [b, heard_eq, hup, ne_eq, not_true_eq_false, or_false]
  have routed : good → receive f s.toBlock = routeFrame g (countRxFrames b) := fun hg => by
    rw [receive_good hup hg, ← hb]
  clear_value b
  refine ⟨fun hg => ends _ ?_, fun hg h1 => ends _ ?_, fun hg h1 h2 => ends _ ?_, fun hg ⟨h1, h2, h3⟩ hk hs => ends _ ?_,
    fun hg ⟨h1, h2, h3⟩ hk hr => ends _ ?_, fun hg ⟨h1, h2, h3⟩ hk hr => ends _ ?_,
    fun hg ⟨h1, h2, h3⟩ hk hl hr => ends _ ?_, fun hg ⟨h1, h2, h3⟩ hk hr => ends _ ?_⟩
  · rw [receive_bad hup hg, ← hb]
    rfl
  · rw [routed hg, routeFrame_returned (s := countRxFrames b) h1]
    rfl
  · rw [routed hg, routeFrame_hopExpired (s := countRxFrames b) h1 h2]
    rfl
  · rw [routed hg, routeFrame_consumed (s := countRxFrames b) h1 h2 h3, consume_other hk hs]
    rfl
  · rw [routed hg, routeFrame_consumed (s := countRxFrames b) h1 h2 h3, consume_request hk, enqueueRequest_room (s := countRxFrames b) _ hr]
    rfl
  · rw [routed hg, routeFrame_consumed (s := countRxFrames b) h1 h2 h3, consume_request hk, enqueueRequest_full (s := countRxFrames b) _ hr]
    rfl
  · rw [routed hg, routeFrame_passed (s := countRxFrames b) h1 h2 h3, passOn_forwarded hk, forward_room (s := countRxFrames b) hl hr]
    rfl
  · rw [routed hg, routeFrame_passed (s := countRxFrames b) h1 h2 h3, passOn_forwarded hk, forward_dropped (s := countRxFrames b) hr]
    rfl

end Sys2Proof.Machine
end

section
/-! PROOFS. The line ring (chapter 1): numbers as bytes, the arbiter and the control frames, DRIVE frames, the EVENT frame
and the taking of SAMPLE frames (chapter 2). -/

namespace Sys2Proof.Machine

open Sys2Proof

/-! ### Numbers as bytes, least significant first -/

theorem leNat_leBytes (n x : Nat) : leNat (leBytes n x) = x % 256 ^ n := by
  induction n generalizing x with
  | zero => simp [leBytes, leNat, Nat.mod_one]
  | succ n ih =>
    rw [leBytes, leNat, ih, BitVec.toNat_ofNat, show 256 ^ (n + 1) = 256 * 256 ^ n from Nat.pow_succ', Nat.mod_mul]

theorem leNat_leBytes_of_lt {n x : Nat} (h : x < 256 ^ n) : leNat (leBytes n x) = x := by
  rw [leNat_leBytes, Nat.mod_eq_of_lt h]

/-- Two's complement of `n + 1` bits reads back every number from −2^n to 2^n − 1. -/
theorem toSigned_ofSigned {n : Nat} {v : Int} (h1 : -(2 ^ n : Nat) ≤ v) (h2 : v < (2 ^ n : Nat)) :
    toSigned (n + 1) (ofSigned (n + 1) v) = v := by
  have hpow : 2 ^ (n + 1) = 2 * 2 ^ n := Nat.pow_succ'
  unfold toSigned ofSigned
  rw [Nat.add_sub_cancel, hpow]
  generalize 2 ^ n = m at h1 h2
  by_cases h : 0 ≤ v
  · have e : v % ((2 * m : Nat) : Int) = v := Int.emod_eq_of_lt h (by omega)
    rw [e, if_pos (by omega)]
    omega
  · have e : v % ((2 * m : Nat) : Int) = v + (2 * m : Nat) := by
      rw [← Int.add_emod_right]
      exact Int.emod_eq_of_lt (by omega) (by omega)
    rw [e, if_neg (by omega)]
    omega

theorem ofSigned_lt {n : Nat} (v : Int) : ofSigned n v < 2 ^ n := by
  have hpos : (0 : Int) < ((2 ^ n : Nat) : Int) := by exact_mod_cast Nat.two_pow_pos n
  have h1 := Int.emod_nonneg v hpos.ne'
  have h2 := Int.emod_lt_of_pos v hpos
  unfold ofSigned
  omega

/-- A signed number of three bytes is read back (R22). -/
theorem toSigned_leInt_three {v : Int} (h1 : -8388608 ≤ v) (h2 : v ≤ 8388607) :
    toSigned 24 (leNat (leInt 3 v)) = v := by
  rw [leInt, leNat_leBytes_of_lt (ofSigned_lt v)]
  exact toSigned_ofSigned (n := 23) (by norm_num; omega) (by norm_num; omega)

theorem leBytes_four (n : Nat) : leBytes 4 n =
    [BitVec.ofNat 8 n, BitVec.ofNat 8 (n / 256), BitVec.ofNat 8 (n / 65536), BitVec.ofNat 8 (n / 65536 / 256)] := by
  simp only [leBytes, Nat.div_div_eq_div_mul]

/-! ### The arbiter (R10, R11) -/

section Arbiter

variable {s : Block}

theorem arbitrate_busy (h : ¬ (s.rpu.outPort.link = .up ∧ s.rpu.onLine = none)) : arbitrate s = s := by
  have h : ¬ (outUp s && s.rpu.onLine.isNone) = true := by
    rw [Bool.and_eq_true, outUp, decide_eq_true_eq, Option.isNone_iff_eq_none]
    exact h
  exact if_neg h

theorem arbitrate_idle (h : s.rpu.outPort.link = .up ∧ s.rpu.onLine = none) : arbitrate s = decideOut s := by
  have h : (outUp s && s.rpu.onLine.isNone) = true := by
    rw [Bool.and_eq_true, outUp, decide_eq_true_eq, Option.isNone_iff_eq_none]
    exact h
  exact if_pos h

/-- The forward queue as the arbiter may take from it. -/
def mayForward (s : Block) : List Frame :=
  if decide (s.rpu.forwardCount < Config.forwardRun) || (s.rpu.controlQ.isEmpty && s.rpu.infoQ.isEmpty) then
    s.rpu.forwardQ
  else []

theorem mayForward_full (h : s.rpu.forwardCount < 4 ∨ (s.rpu.controlQ = [] ∧ s.rpu.infoQ = [])) :
    mayForward s = s.rpu.forwardQ := by
  refine if_pos ?_
  rw [Bool.or_eq_true, Bool.and_eq_true, decide_eq_true_eq, List.isEmpty_iff, List.isEmpty_iff]
  exact h

theorem mayForward_nil (h : s.rpu.forwardQ = [] ∨ 4 ≤ s.rpu.forwardCount)
    (hq : ¬ (s.rpu.controlQ = [] ∧ s.rpu.infoQ = [])) : mayForward s = [] := by
  rcases h with h | h
  · unfold mayForward
    rw [h, ite_self]
  · refine if_neg ?_
    rw [Bool.or_eq_true, Bool.and_eq_true, decide_eq_true_eq, List.isEmpty_iff, List.isEmpty_iff]
    exact fun hn => hn.elim (Nat.not_lt.mpr h) hq

theorem decideOut_eq (s : Block) : decideOut s = match mayForward s, s.rpu.controlQ, s.rpu.infoQ with
    | f :: fs, _, _ =>
      { s with rpu := { s.rpu with forwardQ := fs, onLine := some (frameBytes f)
                                   forwardCount := min (s.rpu.forwardCount + 1) 4 } }
    | [], c :: cs, _ =>
      { s with rpu := { s.rpu with controlQ := cs, onLine := some (originBytes s (controlFrame c)), forwardCount := 0 } }
    | [], [], i :: rest =>
      { s with rpu := { s.rpu with infoQ := rest, onLine := some (originBytes s i), forwardCount := 0 } }
    | [], [], [] => s := rfl

end Arbiter

theorem transmitDone_some {s : Block} (h : s.rpu.onLine ≠ none) : transmitDone s =
    { s with rpu := { s.rpu with
        onLine := none
        counters := { s.rpu.counters with txFrames := min (s.rpu.counters.txFrames + 1) 65535 } } } :=
  if_pos (Option.isSome_iff_ne_none.mpr h)

theorem transmitDone_none {s : Block} (h : s.rpu.onLine = none) : transmitDone s = s := by
  simp [transmitDone, h]

/-- Settles O15: the end of a transmission, the cases of the arbiter, and the payloads kind by kind. -/
theorem transmitAndArbiter : Obligations.TransmitAndArbiter := by
  refine ⟨fun s h => finish_eq (transmitDone_some h), fun s h => finish_eq (transmitDone_none h), fun s => ?_⟩
  refine ⟨arbitrate_busy, fun hi f fs hf hm => ?_, fun hi hf c cs hc => ?_, fun hi hf hc i is hn => ?_,
    fun hf hc hn => ?_, fun node es => rfl, fun st dest o => ?_, fun st dest closeOk openOk n => ?_, fun dest n => ?_⟩
  · rw [arbitrate_idle hi, decideOut_eq, mayForward_full hm, hf]
  · have h0 := mayForward_nil (s := s) hf fun h => by rw [hc] at h; cases h.1
    rw [arbitrate_idle hi, decideOut_eq, h0, hc]
    rfl
  · have h0 := mayForward_nil (s := s) hf fun h => by rw [hn] at h; cases h.2
    rw [arbitrate_idle hi, decideOut_eq, h0, hc, hn]
    rfl
  · by_cases hi : s.rpu.outPort.link = .up ∧ s.rpu.onLine = none
    · rw [arbitrate_idle hi, decideOut_eq, mayForward_full (.inr ⟨hc, hn⟩), hf, hc, hn]
    · exact arbitrate_busy hi
  · cases st <;> rfl
  · simp only [controlFrame, leBytes_four]
    cases st <;> cases closeOk <;> cases openOk <;> rfl
  · obtain ⟨st, notice, attempt, cause, weight⟩ := n
    simp only [controlFrame, leInt, leBytes_four]
    cases st <;> cases notice <;> cases cause <;> rfl

/-! ### DRIVE frames (R13, R14, R97, R116) -/

theorem putDuty_replaces {ch duty d : Nat} {e1 e2 : List DriveEntry} (h : ∀ e ∈ e1, e.channel ≠ ch) :
    putDuty ch duty (e1 ++ [{ channel := ch, duty := d }] ++ e2) = e1 ++ [{ channel := ch, duty := duty }] ++ e2 := by
  induction e1 with
  | nil => simp [putDuty]
  | cons e es ih =>
    obtain ⟨he, hes⟩ := List.forall_mem_cons.mp h
    simpa [putDuty, he] using ih hes

theorem putDuty_joins {ch duty : Nat} {es : List DriveEntry} (h : ∀ e ∈ es, e.channel ≠ ch) :
    putDuty ch duty es = es ++ [{ channel := ch, duty := duty }] := by
  induction es with
  | nil => rfl
  | cons e es ih =>
    obtain ⟨he, hes⟩ := List.forall_mem_cons.mp h
    simp [putDuty, he, ih hes]

/-- Frames that are no DRIVE frame of the node are left as they are. -/
theorem map_dutyInto_other {node ch duty : Nat} {q : List ControlFrame} (h : ∀ f ∈ q, ∀ es, f ≠ .drive node es) :
    q.map (dutyInto node ch duty) = q := by
  refine (List.map_congr_left fun f hf => ?_).trans (List.map_id q)
  cases f with
  | drive n es => exact if_neg fun e => h _ hf es (by rw [e])
  | _ => rfl

theorem putDrive_held {nodes : List Nat} {node ch duty : Nat} {pre post : List ControlFrame} {es : List DriveEntry}
    (hpre : ∀ f ∈ pre, ∀ es', f ≠ .drive node es') (hpost : ∀ f ∈ post, ∀ es', f ≠ .drive node es') :
    putDrive nodes node ch duty (pre ++ [.drive node es] ++ post) = pre ++ [.drive node (putDuty ch duty es)] ++ post := by
  rw [putDrive_of_held (by simp [driveNodeOf])]
  simp only [List.map_append, map_dutyInto_other hpre, map_dutyInto_other hpost, List.map_cons, List.map_nil, dutyInto,
    if_true]

theorem not_mem_driveNodes {node : Nat} {q : List ControlFrame} (h : ∀ f ∈ q, ∀ es, f ≠ .drive node es) :
    node ∉ q.filterMap driveNodeOf := by
  rw [List.mem_filterMap]
  rintro ⟨f, hf, hn⟩
  cases f with
  | drive n es => exact h _ hf es (by rw [Option.some.inj hn])
  | _ => cases hn

/-- The oldest DRIVE frame whose node no enabled zone names is the one removed. -/
theorem dropStrayDrive_drops {nodes : List Nat} {n : Nat} {es : List DriveEntry} {pre post : List ControlFrame}
    (hn : n ∉ nodes) (hpre : ∀ m ∈ pre.filterMap driveNodeOf, m ∈ nodes) :
    dropStrayDrive nodes (pre ++ [.drive n es] ++ post) = pre ++ post := by
  induction pre with
  | nil => simp [dropStrayDrive, hn]
  | cons f fs ih =>
    cases f with
    | drive m es' =>
      simp only [List.filterMap_cons, driveNodeOf, List.forall_mem_cons] at hpre
      obtain ⟨hm, hfs⟩ := hpre
      simpa [dropStrayDrive, hm] using ih hfs
    | _ => simpa [dropStrayDrive] using ih hpre

/-- Settles O16. -/
theorem drivePosting : Obligations.DrivePosting := by
  refine ⟨fun z s hup => postControl_of_up hup _, fun nodes node ch duty q => ⟨?_, fun hq hlt => ?_, ?_⟩⟩
  · rintro pre es post rfl hpre hpost
    refine ⟨?_, fun hes => ?_⟩
    · rintro e1 d e2 rfl he1
      rw [putDrive_held hpre hpost, putDuty_replaces he1]
    · rw [putDrive_held hpre hpost, putDuty_joins hes]
  · rw [putDrive_of_absent (not_mem_driveNodes hq), if_pos hlt]
  · rintro pre n es post rfl hq hge hn hpre
    rw [putDrive_of_absent (not_mem_driveNodes hq), if_neg (Nat.not_lt.mpr hge), dropStrayDrive_drops hn hpre]

/-! ### The EVENT frame (R18, R25, R189) -/

/-- Settles O20: the two cases of `joinEvent`. -/
theorem eventFrameJoins : Obligations.EventFrameJoins := by
  intro s up ks
  refine ⟨fun hg hu hr => finish_eq ?_, fun hn => finish_eq ?_⟩
  · have h : (eventWaiting s.toBlock && decide (s.rpu.infoQ.length < Config.infoCapacity)) = true := by
      rw [Bool.and_eq_true, eventWaiting, Bool.and_eq_true, decide_eq_true_eq, decide_eq_true_eq]
      exact ⟨⟨hg, hu⟩, hr⟩
    exact if_pos h
  · have h : ¬ (eventWaiting s.toBlock && decide (s.rpu.infoQ.length < Config.infoCapacity)) = true := by
      rw [Bool.and_eq_true, eventWaiting, Bool.and_eq_true, decide_eq_true_eq, decide_eq_true_eq]
      rintro ⟨⟨hg, hu⟩, hr⟩
      rcases hn with hn | hn | hn
      · rw [hg] at hn; cases hn
      · exact hu hn
      · exact absurd hr (Nat.not_lt.mpr hn)
    exact if_neg h

/-! ### SAMPLE frames (R7, R22, R32) -/

/-- The bytes of one SAMPLE entry (R22). -/
def sampleEntryBytes (e : SampleEntry) : List Byte := [byteOf e.channel, byteOf e.quality] ++ leInt 3 e.value

theorem sampleEntryBytes_length (e : SampleEntry) : (sampleEntryBytes e).length = 5 := by
  simp [sampleEntryBytes, leInt, leBytes_length]

/-- One entry is read back from its bytes, whatever follows. -/
theorem sampleEntriesAt_cons {e : SampleEntry} (h1 : e.channel ≤ 255) (h2 : e.quality ≤ 255)
    (h3 : -8388608 ≤ e.value) (h4 : e.value ≤ 8388607) (n : Nat) (bs : List Byte) :
    sampleEntriesAt (n + 1) (sampleEntryBytes e ++ bs) = e :: sampleEntriesAt n bs := by
  obtain ⟨x, y, z, hb⟩ : ∃ x y z, leInt 3 e.value = [x, y, z] := ⟨_, _, _, rfl⟩
  have hv := toSigned_leInt_three h3 h4
  rw [hb] at hv
  have hbytes : sampleEntryBytes e ++ bs = byteOf e.channel :: byteOf e.quality :: x :: y :: z :: bs := by
    rw [sampleEntryBytes, hb]
    rfl
  have hbyte : ∀ k, k ≤ 255 → (byteOf k).toNat = k := fun k hk => by
    rw [byteOf, BitVec.toNat_ofNat]
    omega
  rw [hbytes, sampleEntriesAt, field_one, field_cons, field_one, hbyte _ h1, hbyte _ h2]
  congr 1
  change ({ channel := e.channel, quality := e.quality, value := toSigned 24 (leNat [x, y, z]) } : SampleEntry) = e
  rw [hv]

theorem sampleEntriesAt_flatMap {es : List SampleEntry}
    (h : ∀ e ∈ es, e.channel ≤ 255 ∧ e.quality ≤ 255 ∧ -8388608 ≤ e.value ∧ e.value ≤ 8388607) :
    sampleEntriesAt es.length (es.flatMap sampleEntryBytes) = es := by
  induction es with
  | nil => rfl
  | cons e es ih =>
    obtain ⟨⟨h1, h2, h3, h4⟩, hes⟩ := List.forall_mem_cons.mp h
    rw [List.flatMap_cons, List.length_cons, sampleEntriesAt_cons h1 h2 h3 h4, ih hes]

theorem sampleEntries_eq_nil {payload : List Byte} (h : field payload 0 1 = 0 ∨ 16 < field payload 0 1 ∨
    payload.length ≠ 1 + 5 * field payload 0 1) : sampleEntries payload = [] :=
  if_neg fun ⟨h1, h2, h3⟩ => by omega

theorem sampleEntries_flatMap {es : List SampleEntry} (hlo : 1 ≤ es.length) (hhi : es.length ≤ 16)
    (h : ∀ e ∈ es, e.channel ≤ 255 ∧ e.quality ≤ 255 ∧ -8388608 ≤ e.value ∧ e.value ≤ 8388607) :
    sampleEntries (byteOf es.length :: es.flatMap sampleEntryBytes) = es := by
  have hcount : field (byteOf es.length :: es.flatMap sampleEntryBytes) 0 1 = es.length := by
    rw [field_one, byteOf, BitVec.toNat_ofNat]
    omega
  unfold sampleEntries
  rw [hcount, if_pos]
  · exact sampleEntriesAt_flatMap h
  · rw [List.length_cons, flatMap_length _ 5 sampleEntryBytes_length]
    omega

/-- A SAMPLE frame that passed the check of the port and is no frame of the part's own. -/
theorem receive_sample {f : RxFrame} {s : Block} (h : s.rpu.inPort.link = .up) (hw : wellFramed f = true)
    (hc : checkPasses f.bytes = true) : receive f s = routeFrame (frameOf f.bytes)
      { s with rpu := { s.rpu with
        inPort := { s.rpu.inPort with reception := .clean }
        counters := { s.rpu.counters with rxFrames := min (s.rpu.counters.rxFrames + 1) 65535 } } } := by
  have hcut : f.cutShort = false := ((wellFramed_iff f).mp hw).1
  rw [receive_good h ⟨hw, hc⟩, heard_eq, hcut]
  rfl

/-- Settles O21: the route of the frame, the entries read back, and the malformed payloads. -/
theorem sampleFramesTaken : Obligations.SampleFramesTaken := by
  refine ⟨?_, fun es => sampleEntries_flatMap, fun payload => sampleEntries_eq_nil⟩
  intro f s g taken counted hup hw hc hsrc hhops hkind
  have hr : receive f s.toBlock = routeFrame g counted := receive_sample hup hw hc
  refine ⟨fun hd => finish_eq ?_, fun hown hd => finish_eq ?_⟩
  · rw [hr, routeFrame_consumed (s := counted) hsrc hhops hd, consume_sample hkind]
    rfl
  · have hn : g.dest.toNat ≠ counted.rpu.ownAddress := by
      rw [hd]
      exact Ne.symm hown
    rw [hr, routeFrame_passed (s := counted) hsrc hhops hn, passOn_broadcast hd hkind]
    have hforward : forward g counted = if s.rpu.outPort.link = .up ∧ s.rpu.forwardQ.length < 4 then
          { counted with rpu := { counted.rpu with forwardQ := s.rpu.forwardQ ++ [{ g with hops := g.hops - 1 }] } }
        else
          { counted with
            rpu := { counted.rpu with counters := { counted.rpu.counters with
              fwdDrop := min (s.rpu.counters.fwdDrop + 1) 65535 } }
            cdu := { s.cdu with latched := s.cdu.latched ||| (1#23 <<< 18) } } := by
      split
      next h => exact forward_room (s := counted) h.1 h.2
      next h =>
        rw [not_and_or, Nat.not_lt] at h
        exact forward_dropped (s := counted) h
    rw [hforward]
    rfl

end Sys2Proof.Machine
end

section
/-! PROOFS. The reset values and resets (R190, R192), the conditions' requests (R188), and the record base and time (R171,
R172). -/

namespace Sys2Proof.Machine

open Sys2Proof

/-! ### Reset -/

@[simp] theorem vget_replicate {α : Type} {n : Nat} (x : α) (i : Fin n) : vget (Vector.replicate n x) i = x := by
  simp [vget]

/-- Settles O4: block by block, from the definitions of the reset values. -/
theorem resetValues : Obligations.ResetValues := by
  unfold Obligations.ResetValues
  intro r
  refine ⟨rfl, rfl, rfl, rfl, rfl, rfl, rfl, rfl, rfl, fun i => ?_, fun z => vget_replicate _ z, fun i => vget_replicate _ i,
    fun i => vget_replicate _ i, fun st => ?_, rfl, fun st => ?_, fun z => ?_, rfl, rfl, rfl, fun st => ?_,
    fun i => vget_replicate _ i, rfl, rfl, rfl, ?_, rfl, rfl, rfl, rfl, rfl⟩
  · have e : vget r.tab.map i = neverEntry none := vget_replicate _ i
    rw [e]
    exact ⟨rfl, rfl, rfl, rfl, rfl⟩
  · cases st <;> rfl
  · have e : stcOf r.toBlock st = resetStc := by cases st <;> rfl
    rw [e]
    exact ⟨rfl, rfl, rfl, rfl, fun z => vget_replicate _ z, rfl, rfl, rfl, rfl, rfl, rfl⟩
  · have e : zoneOf r.toBlock z = resetZone .disabled defaultZoneEntry := vget_replicate _ z
    have ea : vget r.pwa.allowance z = 0 := vget_replicate _ z
    rw [e]
    exact ⟨rfl, rfl, rfl, rfl, rfl, rfl, rfl, rfl, rfl, ea⟩
  · have e : dmsOf r.toBlock st = resetDms := by cases st <;> rfl
    rw [e]
    exact ⟨rfl, rfl, rfl, rfl, rfl, rfl⟩
  · decide

/-! ### Slots counted -/

theorem countSlots_pos {p : HistorySlot → Bool} {h : Hst} : 0 < countSlots p h ↔ ∃ i, p (vget h.slots i) = true := by
  rw [countSlots, List.length_pos_iff_exists_mem]
  simp [allSlots]

theorem countSlots_eq_zero {p : HistorySlot → Bool} {h : Hst} : countSlots p h = 0 ↔ ∀ i, p (vget h.slots i) = false := by
  rw [← not_iff_not, ← ne_eq, ← Nat.pos_iff_ne_zero, countSlots_pos]
  simp

theorem isFree_eq_false {sl : HistorySlot} : isFree sl = false ↔ ∃ h r, sl = .held h r := by
  cases sl with
  | free => simp [isFree]
  | held h r => simp [isFree]

/-- Some record is held where fewer than all slots are FREE (R192). -/
theorem anyRecord_iff (h : Hst) : anyRecord h = true ↔ ∃ i g r, vget h.slots i = .held g r := by
  have hall : allSlots.length = 48 := by simp [allSlots]
  have hlt : countSlots isFree h < 48 ↔ countSlots isFree h < allSlots.length := by rw [hall]
  rw [anyRecord, decide_eq_true_eq, hlt, countSlots, List.length_filter_lt_length_iff_exists]
  simp only [allSlots, List.mem_finRange, true_and, Bool.not_eq_true, isFree_eq_false]

/-! ### POWER_ON and RESTART (R190, R192) -/

theorem resetLevels_getLsbD (i o : Link) (k : Nat) : (resetLevels i o).getLsbD k = true ↔
    (k = 15 ∧ i ≠ .up) ∨ (k = 16 ∧ o ≠ .up) ∨ k = 20 := by
  by_cases hk : k < 23
  · have h15 : (1#23 <<< 15).getLsbD k = decide (k = 15) := condBit_getLsbD 15 k hk
    have h16 : (1#23 <<< 16).getLsbD k = decide (k = 16) := condBit_getLsbD 16 k hk
    have h20 : (1#23 <<< 20).getLsbD k = decide (k = 20) := condBit_getLsbD 20 k hk
    unfold resetLevels
    rw [BitVec.getLsbD_or, BitVec.getLsbD_or, h20]
    have hi : (if i = .up then 0#23 else 1#23 <<< 15).getLsbD k = decide (k = 15 ∧ i ≠ .up) := by
      split
      next h => simp [h]
      next h => rw [h15]; simp [h]
    have ho : (if o = .up then 0#23 else 1#23 <<< 16).getLsbD k = decide (k = 16 ∧ o ≠ .up) := by
      split
      next h => simp [h]
      next h => rw [h16]; simp [h]
    rw [hi, ho]
    simp [or_assoc]
  · rw [BitVec.getLsbD_of_ge _ _ (Nat.not_lt.mp hk)]
    simp only [Bool.false_eq_true, false_iff]
    omega

/-- Settles O43: power-on leaves nothing to the arbiter; RESTART by its refusals. -/
theorem resetCommands : Obligations.ResetCommands := by
  constructor
  · intro s
    refine (finish_eq rfl).trans ?_
    have hb : arbitrate (powerOnReset s.toBlock) = powerOnReset s.toBlock := arbitrate_busy fun h => nomatch h.1
    rw [State.closing, hb]
    rfl
  intro q force s s1 c held ha
  have ends : ∀ a : Answer, ownRestart force s1 = a → answered c s q 0x12 a.status a.body a.after := by
    rintro a rfl
    cases force
    · exact finish_serve_admitted ha rfl
    · exact finish_serve_admitted ha rfl
  have hheld : anyRecord s1.hst = true ↔ held := anyRecord_iff s1.hst
  refine ⟨fun hi => ends (refuse .busy s1) (if_pos hi), fun hi hh hf => ends (refuse .notAllowed s1) ?_, fun hi hf =>
    ⟨_, ends (accept (restarted s1)) ?_, fun k => resetLevels_getLsbD s1.rpu.inPort.link s1.rpu.outPort.link k⟩⟩
  · rw [ownRestart, if_neg hi, hf, hheld.mpr hh]
    rfl
  · rw [ownRestart, if_neg hi]
    refine if_neg ?_
    rw [Bool.and_eq_true, Bool.not_eq_true', hheld]
    rintro ⟨hh, hn⟩
    rcases hf with hf | hf
    · rw [hf] at hn; cases hn
    · exact hf hh

end Sys2Proof.Machine
end

section
/-! PROOFS. The requests of the Condition Unit (R188), SET_RECORD_BASE and SET_TIME (R171, R172), and where no station takes the
cycle-open test (R68). -/

namespace Sys2Proof.Machine

open Sys2Proof

/-! ### Sets of conditions (R188) -/

theorem foldl_condBit_getLsbD (ks : List Nat) (v : BitVec 23) (j : Nat) (hj : j < 23) :
    (ks.foldl (fun v k => v ||| condBit k) v).getLsbD j = (v.getLsbD j || decide (j ∈ ks)) := by
  induction ks generalizing v with
  | nil => simp
  | cons k ks ih =>
    rw [List.foldl_cons, ih, BitVec.getLsbD_or, condBit_getLsbD _ _ hj, Bool.or_assoc]
    simp only [List.mem_cons, Bool.decide_or]

theorem condSet_getLsbD (ks : List Nat) (j : Nat) (hj : j < 23) : (condSet ks).getLsbD j = decide (j ∈ ks) := by
  rw [condSet, foldl_condBit_getLsbD _ _ _ hj]
  simp

/-- A number listed in a body. -/
theorem mem_listed {n : Byte} {ks : List Byte} {j : Nat} (hj : j < 256) : j ∈ listed (n :: ks) ↔ byteOf j ∈ ks := by
  have hb : (byteOf j).toNat = j := by rw [byteOf, BitVec.toNat_ofNat]; omega
  simp only [listed, List.drop_succ_cons, List.drop_zero, List.mem_map]
  constructor
  · rintro ⟨k, hk, rfl⟩
    rwa [byteOf_toNat]
  · exact fun h => ⟨_, h, hb⟩

/-- A clear of listed conditions takes the latch of those whose level is absent. -/
theorem cleared_getLsbD (latched present : BitVec 23) (ks : List Nat) (j : Nat) (hj : j < 23) :
    (latched &&& ~~~(condSet ks &&& ~~~present)).getLsbD j =
      (latched.getLsbD j && !(decide (j ∈ ks) && !present.getLsbD j)) := by
  simp only [BitVec.getLsbD_and, BitVec.getLsbD_not, condSet_getLsbD _ _ hj, hj, decide_true, Bool.true_and]

/-- The conditions listed whose latch a clear leaves. -/
theorem condNumbers_left (latched present : BitVec 23) (ks : List Nat) :
    condNumbers (condSet ks &&& present &&& (latched &&& ~~~(condSet ks &&& ~~~present))) =
      (List.range 23).filter fun k => decide (k ∈ ks) && present.getLsbD k && latched.getLsbD k := by
  refine List.filter_congr fun k hk => ?_
  have hk : k < 23 := List.mem_range.mp hk
  rw [BitVec.getLsbD_and, cleared_getLsbD _ _ _ _ hk, BitVec.getLsbD_and, condSet_getLsbD _ _ hk]
  cases decide (k ∈ ks) <;> cases present.getLsbD k <;> simp

theorem clearForm_counted {ks : List Byte} (h : ks.length ≤ 117) : clearForm (byteOf ks.length :: ks) = true := by
  have hf : field (byteOf ks.length :: ks) 0 1 = ks.length := by
    rw [field_one, byteOf, BitVec.toNat_ofNat]
    omega
  rw [clearForm, hf, Bool.and_eq_true, decide_eq_true_eq, decide_eq_true_eq, List.length_cons]
  omega

/-! ### Three bytes as a set (R188) -/

theorem append_three_toNat (b2 b1 b0 : Byte) :
    (b2 ++ b1 ++ b0).toNat = b0.toNat + 256 * b1.toNat + 65536 * b2.toNat := by
  rw [BitVec.toNat_append, ← Nat.shiftLeft_add_eq_or_of_lt b0.isLt, Nat.shiftLeft_eq, BitVec.toNat_append,
    ← Nat.shiftLeft_add_eq_or_of_lt b1.isLt, Nat.shiftLeft_eq]
  omega

theorem byte_msb (b : Byte) : b.getLsbD 7 = decide (128 ≤ b.toNat) := by
  have h := BitVec.msb_eq_decide b
  rw [BitVec.msb_eq_getLsbD_last] at h
  exact h

/-- Settles O26: READ_CONDITIONS by its bytes, CLEAR_CONDITIONS bit by bit, SET_MASK and FORCE_CONDITION by their bounds. -/
theorem conditionRequests : Obligations.ConditionRequests := by
  intro q s s1 hi
  refine ⟨fun ht => ?_, fun hm => ⟨fun ks hlen ht => ?_, fun b0 b1 b2 ht => ?_, fun k ht => ?_⟩⟩
  · refine (finish_serve_read ht hi).trans ?_
    have hgate : leBytes 1 (!s1.cdu.gateOpen).toNat = [if s1.cdu.gateOpen then 0 else 1] := by
      cases s1.cdu.gateOpen <;> rfl
    rw [ownReadConditions, hgate]
    rfl
  · have he : exec (.clearConditions q (byteOf ks.length :: ks)) s = .next (s.closing
        (answer q codeClearConditions (ownClearConditions (byteOf ks.length :: ks) s1))) := by
      refine (finish_taken ht _).trans ?_
      rw [clearForm_counted hlen, serve_write hi hm]
    rw [he]
    unfold ownClearConditions
    extract_lets ls latched left
    refine ⟨fun ⟨k, hk, hbig⟩ => ?_, fun hall => ⟨latched, left, ?_, fun k hk => ?_, ?_⟩⟩
    · have hany : ls.any (fun k => decide (22 < k)) = true :=
        List.any_eq_true.mpr ⟨k.toNat, List.mem_map_of_mem hk, decide_eq_true hbig⟩
      rw [if_pos hany]
      rfl
    · have hany : ¬ ls.any (fun k => decide (22 < k)) = true := by
        rw [List.any_eq_true]
        rintro ⟨n, hn, hbig⟩
        obtain ⟨k, hk, rfl⟩ := List.mem_map.mp hn
        exact absurd (hall k hk) (Nat.not_le.mpr (of_decide_eq_true hbig))
      rw [if_neg hany]
      rfl
    · rw [cleared_getLsbD _ _ _ _ hk, decide_eq_decide.mpr (mem_listed (by omega))]
    · refine (condNumbers_left _ _ _).trans (List.filter_congr fun k hk => ?_)
      have hk : k < 23 := List.mem_range.mp hk
      rw [decide_eq_decide.mpr (mem_listed (by omega))]
  · refine (finish_serve_write ht hi hm).trans ?_
    unfold ownSetMask
    rw [field_three, byte_msb]
    by_cases h : 128 ≤ b2.toNat
    · rw [if_pos (by omega), decide_eq_true h]
      rfl
    · have hset : BitVec.ofNat 23 (b0.toNat + 256 * b1.toNat + 65536 * b2.toNat) = (b2 ++ b1 ++ b0).setWidth 23 := by
        apply BitVec.eq_of_toNat_eq
        rw [BitVec.toNat_ofNat, BitVec.toNat_setWidth, append_three_toNat]
      rw [if_neg (by omega), decide_eq_false h, hset]
      rfl
  · refine (finish_serve_write ht hi hm).trans ?_
    unfold ownForce
    rw [field_one]
    split
    · rfl
    · rfl

/-! ### Records held (R170, R171) -/

theorem anyOpen_iff (h : Hst) : anyOpen h = true ↔ ∃ i r, vget h.slots i = .held .opened r := by
  rw [anyOpen, decide_eq_true_eq, countSlots_pos]
  refine exists_congr fun i => ?_
  cases vget h.slots i with
  | free => simp [isHolding]
  | held g r => cases g <;> simp [isHolding]

theorem counterAbove_iff (h : Hst) (n : Nat) : counterAbove h n = true ↔ ∀ i, slotNumber (vget h.slots i) < n := by
  simp [counterAbove, allSlots]

theorem counterAbove_iff_of_pos {h : Hst} {n : Nat} (hn : n ≠ 0) :
    counterAbove h n = true ↔ ∀ i g r, vget h.slots i = .held g r → r.number < n := by
  rw [counterAbove_iff]
  refine forall_congr' fun i => ?_
  cases hs : vget h.slots i with
  | free => simpa [slotNumber] using Nat.pos_of_ne_zero hn
  | held g r =>
    constructor
    · rintro h _ _ ⟨⟩
      exact h
    · exact fun h => h g r rfl

/-! ### The cycle-open test where no station takes it (R68) -/

theorem cycleOpenTest_idle {s : Block} {st : Station} (h : (stcOf s st).state ≠ .ready ∨ (stcOf s st).production = false) :
    cycleOpenTest st s = s := by
  refine if_neg ?_
  rw [Bool.and_eq_true, decide_eq_true_eq]
  rintro ⟨h1, h2⟩
  rcases h with h | h
  · exact h h1
  · rw [h2] at h; cases h

theorem testStations_notBoth {s : Block} (h : ¬ (stateOf s .a = .ready ∧ stateOf s .b = .ready)) :
    testStations s = cycleOpenTest .b (cycleOpenTest .a s) := by
  refine if_neg ?_
  rwa [Bool.and_eq_true, decide_eq_true_eq, decide_eq_true_eq]

theorem testStations_idle {s : Block} (h : ∀ st, (stcOf s st).state = .ready → (stcOf s st).production = false)
    (hn : ¬ (stateOf s .a = .ready ∧ stateOf s .b = .ready)) : testStations s = s := by
  have idle : ∀ st, cycleOpenTest st s = s := fun st => cycleOpenTest_idle (imp_iff_not_or.mp (h st))
  rw [testStations_notBoth hn, idle, idle]

/-- An event in which no station takes the cycle-open test, with no station touched. -/
theorem event_testStations_idle {x s : Block} (hstc : x.stc = s.stc)
    (h : ∀ st, (stcOf s st).state = .ready → (stcOf s st).production = false)
    (hn : ¬ (stateOf s .a = .ready ∧ stateOf s .b = .ready)) : event (fun _ => testStations x) s = x := by
  have hx : testStations x = x := by
    refine testStations_idle (fun st => ?_) ?_
    · rw [stcOf, hstc]; exact h st
    · rw [stateOf, stateOf, stcOf, stcOf, hstc]; exact hn
  rw [event_of_stc _ _ (by rw [hx]; exact hstc), hx]

/-- Settles O39. -/
theorem recordBaseAndTime : Obligations.RecordBaseAndTime := by
  intro q b0 b1 b2 b3 b4 b5 s s1 n ms
  have hfield : ∀ l, field (b0 :: b1 :: b2 :: b3 :: l) 0 4 = n := fun l => field_four b0 b1 b2 b3 l
  refine ⟨fun ha => ?_, fun ha => ?_⟩
  · intro ends opened
    have hend : ∀ a : Answer, ownSetBase [b0, b1, b2, b3] s1 = a → ends a.status a.body a.after := by
      rintro a rfl
      exact finish_serve_admitted ha rfl
    unfold ownSetBase at hend
    simp only [hfield] at hend
    have hopen : anyOpen s1.hst = true ↔ opened := anyOpen_iff s1.hst
    refine ⟨fun h0 => hend (refuse .badEntry s1) (if_pos h0), fun h0 ho => hend (refuse .notAllowed s1) ?_,
      fun h0 hle => ?_, fun h0 ho hlt => ?_⟩
    · rw [if_neg h0, if_pos (hopen.mpr ho)]
    · refine hend (refuse .notAllowed s1) ?_
      obtain ⟨i, g, r, hs, hle⟩ := hle
      have hc : ¬ counterAbove s1.hst n = true := by
        rw [counterAbove_iff_of_pos h0]
        exact fun h => absurd (h i g r hs) (Nat.not_lt.mpr hle)
      rw [if_neg h0, Bool.eq_false_iff.mpr hc, Bool.not_false, if_pos rfl, ite_self]
    · intro based
      have hc : counterAbove s1.hst n = true := (counterAbove_iff_of_pos h0).mpr hlt
      have hok : ends .ok [] (event (fun _ => testStations based) s1) := by
        refine hend (accept _) ?_
        rw [if_neg h0, if_neg (mt hopen.mp ho), hc]
        rfl
      refine ⟨hok, fun hp hn => ?_⟩
      have hidle : event (fun _ => testStations based) s1 = based := event_testStations_idle rfl hp hn
      rwa [hidle] at hok
  · intro ends
    have hms : field [b0, b1, b2, b3, b4, b5] 4 2 = ms := by
      rw [field_cons, field_cons, field_cons, field_cons, field_two]
    have hend : ∀ a : Answer, ownSetTime [b0, b1, b2, b3, b4, b5] s1 = a → ends a.status a.body a.after := by
      rintro a rfl
      exact finish_serve_admitted ha rfl
    unfold ownSetTime at hend
    rw [hms, hfield] at hend
    exact ⟨fun h => hend (refuse .badEntry s1) (if_pos h), fun h => hend (accept _) (if_neg (Nat.not_lt.mpr h))⟩

end Sys2Proof.Machine
end

section
/-! PROOFS. The part's own clock: the event that is due, in the order of log 9, and one millisecond (log 1, log 34). -/

namespace Sys2Proof.Machine

open Sys2Proof

/-! ### The first of an ordered list -/

/-- The element found is the least that satisfies the test. -/
theorem find_finRange_eq_some {n : Nat} {p : Fin n → Bool} {i : Fin n} :
    (List.finRange n).find? p = some i ↔ p i = true ∧ ∀ j, j < i → p j = false := by
  constructor
  · intro h
    obtain ⟨hp, as, bs, he, hfalse⟩ := List.find?_eq_some_iff_append.mp h
    refine ⟨hp, fun j hj => ?_⟩
    have hsorted : (as ++ i :: bs).Pairwise (· < ·) := he ▸ List.pairwise_lt_finRange n
    have hmem : j ∈ as ++ i :: bs := he ▸ List.mem_finRange j
    rcases List.mem_append.mp hmem with hm | hm
    · simpa using hfalse j hm
    · rcases List.mem_cons.mp hm with rfl | hm
      · exact absurd hj (lt_irrefl _)
      · have hlt := (List.pairwise_cons.mp (List.pairwise_append.mp hsorted).2.1).1 j hm
        exact absurd hj (not_lt.mpr hlt.le)
  · rintro ⟨hp, hmin⟩
    cases hf : (List.finRange n).find? p with
    | none => exact absurd hp (by simpa using List.find?_eq_none.mp hf i (List.mem_finRange i))
    | some k =>
      obtain ⟨hk, as, bs, he, hfalse⟩ := List.find?_eq_some_iff_append.mp hf
      have hmem : i ∈ as ++ k :: bs := he ▸ List.mem_finRange i
      have hsorted : (as ++ k :: bs).Pairwise (· < ·) := he ▸ List.pairwise_lt_finRange n
      rcases List.mem_append.mp hmem with hm | hm
      · have := hfalse i hm
        rw [hp] at this
        cases this
      · rcases List.mem_cons.mp hm with rfl | hm
        · rfl
        · have hlt := (List.pairwise_cons.mp (List.pairwise_append.mp hsorted).2.1).1 i hm
          rw [hmin k hlt] at hk
          cases hk

/-! ### Events by their place in the order (log 9) -/

/-- The place of a command in the order of log 9. -/
def duePlace : Instr → Nat
  | .eventFrameJoin => 0
  | .partFrameJoin => 1
  | .linkCleanTimeExpiry .inp => 3
  | .linkCleanTimeExpiry .out => 4
  | .sampleEntryStale i => 5 + i.val
  | .cureAccrualComplete st => 101 + stationNum st
  | .maximumCureTimeExpiry st => 103 + stationNum st
  | .outOfBandAllowanceExceeded st => 105 + stationNum st
  | .settleTimerExpiry st => 107 + stationNum st
  | .stepTimerExpiry st => 109 + stationNum st
  | .dwellTimerExpiry st => 111 + stationNum st
  | .permitRefreshExpiry st => 113 + stationNum st
  | .blindHoldExpiry z => 115 + z.val
  | .regulationEvent z => 147 + z.val
  | .stableDwellExpiry => 179
  | .loadingTimerExpiry => 180
  | .budgetPeriodExpiry => 181
  | _ => 2

/-- The event of a place, where the place is that of one event alone. -/
def ofPlace (n : Nat) : Option Instr :=
  if h : 5 ≤ n ∧ n < 101 then some (.sampleEntryStale ⟨n - 5, by omega⟩)
  else if h : 115 ≤ n ∧ n < 147 then some (.blindHoldExpiry ⟨n - 115, by omega⟩)
  else if h : 147 ≤ n ∧ n < 179 then some (.regulationEvent ⟨n - 147, by omega⟩)
  else match n with
    | 0 => some .eventFrameJoin
    | 1 => some .partFrameJoin
    | 3 => some (.linkCleanTimeExpiry .inp)
    | 4 => some (.linkCleanTimeExpiry .out)
    | 101 => some (.cureAccrualComplete .a)
    | 102 => some (.cureAccrualComplete .b)
    | 103 => some (.maximumCureTimeExpiry .a)
    | 104 => some (.maximumCureTimeExpiry .b)
    | 105 => some (.outOfBandAllowanceExceeded .a)
    | 106 => some (.outOfBandAllowanceExceeded .b)
    | 107 => some (.settleTimerExpiry .a)
    | 108 => some (.settleTimerExpiry .b)
    | 109 => some (.stepTimerExpiry .a)
    | 110 => some (.stepTimerExpiry .b)
    | 111 => some (.dwellTimerExpiry .a)
    | 112 => some (.dwellTimerExpiry .b)
    | 113 => some (.permitRefreshExpiry .a)
    | 114 => some (.permitRefreshExpiry .b)
    | 179 => some .stableDwellExpiry
    | 180 => some .loadingTimerExpiry
    | 181 => some .budgetPeriodExpiry
    | _ => none

theorem ofPlace_duePlace {c : Instr} (h : duePlace c ≠ 2) : ofPlace (duePlace c) = some c := by
  cases c
  case linkCleanTimeExpiry p => cases p <;> rfl
  case sampleEntryStale i =>
    have hi := i.isLt
    rw [ofPlace, dif_pos (by simp only [duePlace]; omega)]
    simp [duePlace]
  case blindHoldExpiry z =>
    have hz := z.isLt
    rw [ofPlace, dif_neg (by simp only [duePlace]; omega), dif_pos (by simp only [duePlace]; omega)]
    simp [duePlace]
  case regulationEvent z =>
    have hz := z.isLt
    rw [ofPlace, dif_neg (by simp only [duePlace]; omega), dif_neg (by simp only [duePlace]; omega),
      dif_pos (by simp only [duePlace]; omega)]
    simp [duePlace]
  case cureAccrualComplete st | maximumCureTimeExpiry st | outOfBandAllowanceExceeded st | settleTimerExpiry st |
      stepTimerExpiry st | dwellTimerExpiry st | permitRefreshExpiry st => cases st <;> rfl
  case eventFrameJoin | partFrameJoin | stableDwellExpiry | loadingTimerExpiry | budgetPeriodExpiry => rfl
  all_goals exact absurd rfl h

/-- Two events of one place are one, but for the requests. -/
theorem duePlace_inj {c d : Instr} (h : duePlace d = duePlace c) (hc : duePlace c ≠ 2) : d = c :=
  Option.some.inj ((ofPlace_duePlace (h ▸ hc)).symm.trans ((congrArg ofPlace h).trans (ofPlace_duePlace hc)))

/-- `o` is the first of the events due whose place is from `lo` to below `hi`. -/
def isFirst (due : Instr → Prop) (lo hi : Nat) (o : Option Instr) : Prop :=
  (∀ c, o = some c → due c ∧ lo ≤ duePlace c ∧ duePlace c < hi ∧
      ∀ d, due d → lo ≤ duePlace d → duePlace d < hi → duePlace c < duePlace d ∨ d = c) ∧
    (o = none → ∀ d, due d → lo ≤ duePlace d → ¬ duePlace d < hi)

section First

variable {due : Instr → Prop} {lo mid hi : Nat}

/-- What is due earlier goes before what is due later. -/
theorem isFirst.orElse {o1 o2 : Option Instr} (h1 : isFirst due lo mid o1) (h2 : isFirst due mid hi o2)
    (hlo : lo ≤ mid) (hhi : mid ≤ hi) : isFirst due lo hi (o1 <|> o2) := by
  cases ho : o1 with
  | some c =>
    obtain ⟨hc, hclo, hchi, hmin⟩ := h1.1 c ho
    refine ⟨fun e he => ?_, nofun⟩
    cases he
    refine ⟨hc, hclo, hchi.trans_le hhi, fun d hd hdlo _ => ?_⟩
    by_cases hdm : duePlace d < mid
    · exact hmin d hd hdlo hdm
    · exact .inl (hchi.trans_le (Nat.not_lt.mp hdm))
  | none =>
    have hnone := h1.2 ho
    refine ⟨fun c hc => ?_, fun hn d hd hdlo => h2.2 hn d hd (Nat.not_lt.mp (hnone d hd hdlo))⟩
    obtain ⟨hc, hclo, hchi, hmin⟩ := h2.1 c hc
    exact ⟨hc, hlo.trans hclo, hchi, fun d hd hdlo hdhi => hmin d hd (Nat.not_lt.mp (hnone d hd hdlo)) hdhi⟩

/-- The only event of a place. -/
theorem isFirst_single {k : Nat} {c : Instr} {b : Bool} (hp : duePlace c = k) (hk : k ≠ 2)
    (hb : due c ↔ b = true) : isFirst due k (k + 1) (if b = true then some c else none) := by
  have at_k : ∀ d, k ≤ duePlace d → duePlace d < k + 1 → d = c := fun d h1 h2 => duePlace_inj (by omega) (hp ▸ hk)
  split
  next h =>
    refine ⟨fun d hd => ?_, nofun⟩
    cases hd
    exact ⟨hb.mpr h, hp.ge, by omega, fun d _ h1 h2 => .inr (at_k d h1 h2)⟩
  next h =>
    refine ⟨nofun, fun _ d hd h1 h2 => ?_⟩
    rw [at_k d h1 h2] at hd
    exact h (hb.mp hd)

/-- One event for each station, A before B. -/
theorem isFirst_stations {k : Nat} {f : Station → Instr} {p : Station → Bool}
    (hp : ∀ st, duePlace (f st) = k + stationNum st) (hk : 2 < k)
    (hd : ∀ st, due (f st) ↔ p st = true) : isFirst due k (k + 2) (firstDue p f stations) := by
  have e : firstDue p f stations =
      ((if p .a = true then some (f .a) else none) <|> (if p .b = true then some (f .b) else none)) := by
    unfold firstDue stations
    cases ha : p .a <;> cases hb : p .b <;> simp [List.find?, ha, hb]
  rw [e]
  exact (isFirst_single (hp .a) (by simp only [stationNum]; omega) (hd .a)).orElse
    (isFirst_single (hp .b) (by simp only [stationNum]; omega) (hd .b)) (Nat.le_succ _) (Nat.le_succ _)

/-- One event for each index, in ascending order. -/
theorem isFirst_finRange {n k : Nat} {f : Fin n → Instr} {p : Fin n → Bool} (hp : ∀ i, duePlace (f i) = k + i.val)
    (hk : 2 < k) (hd : ∀ i, due (f i) ↔ p i = true) :
    isFirst due k (k + n) (firstDue p f (List.finRange n)) := by
  have index : ∀ d, k ≤ duePlace d → duePlace d < k + n → ∃ i, d = f i := fun d h1 h2 =>
    ⟨⟨duePlace d - k, by omega⟩, duePlace_inj (by rw [hp]; simp; omega) (by rw [hp]; simp; omega)⟩
  unfold firstDue
  cases hf : (List.finRange n).find? p with
  | none =>
    refine ⟨nofun, fun _ d hdue h1 h2 => ?_⟩
    obtain ⟨i, rfl⟩ := index d h1 h2
    exact List.find?_eq_none.mp hf i (List.mem_finRange i) ((hd i).mp hdue)
  | some i =>
    obtain ⟨hi, hmin⟩ := find_finRange_eq_some.mp hf
    refine ⟨fun c hc => ?_, nofun⟩
    cases hc
    refine ⟨(hd i).mpr hi, by rw [hp]; omega, by rw [hp]; omega, fun d hdue h1 h2 => ?_⟩
    obtain ⟨j, rfl⟩ := index d h1 h2
    rcases lt_trichotomy j i with hj | rfl | hj
    · have := (hd j).mp hdue
      rw [hmin j hj] at this
      cases this
    · exact .inr rfl
    · left
      rw [hp, hp]
      exact Nat.add_lt_add_left hj k

end First

/-! ### What is due -/

/-- A timer that stands at its length. -/
def timerEnded (x : Timer) : Prop := ∃ r, x = some r ∧ r.length ≤ r.elapsed

theorem timerDue_iff (t : Timer) : timerDue t = true ↔ timerEnded t := by
  cases t with
  | none => simp [timerDue, timerEnded]
  | some r => simp [timerDue, timerEnded]

/-- A station in CURING whose cycle satisfies `p`. -/
def curingWith (b : Block) (st : Station) (p : Cycle → Prop) : Prop :=
  (stcOf b st).state = .curing ∧ ∃ k, (stcOf b st).cycle = some k ∧ p k

/-- An event that is due (R2, R18, R39, R74 to R76, R177, R182, R189). -/
def isDue (b : Block) (c : Instr) : Prop :=
  let waits := b.cdu.gateOpen = true ∧ b.cdu.latched &&& ~~~b.cdu.mask ≠ 0
  match c with
  | .eventFrameJoin => waits ∧ b.rpu.infoQ.length < 16
  | .partFrameJoin => b.hst.collection ≠ none ∧ ¬ waits ∧ b.rpu.infoQ.length < 12
  | .linkCleanTimeExpiry p =>
    (portOf b p).link = .training ∧ (portOf b p).reception = .clean ∧ 2 ≤ (portOf b p).cleanTime
  | .sampleEntryStale i => ∃ x, (vget b.tab.map i).config = some x ∧ (vget b.tab.map i).freshness = .fresh ∧
      x.freshLimit ≤ (vget b.tab.map i).age
  | .cureAccrualComplete st => curingWith b st fun k => k.accruing = true ∧ k.accrualUp = true
  | .maximumCureTimeExpiry st => curingWith b st fun k => k.elapsedRunning = true ∧ k.recipe.maxCure * 100 ≤ k.elapsed
  | .outOfBandAllowanceExceeded st => curingWith b st fun k => k.outCounting = true ∧
      k.recipe.allowance * 1000 < k.outOfBand ∧ ∃ r, openRecordOf b st = some r ∧ r.flags.getLsbD 6 = false
  | .settleTimerExpiry st => timerEnded (stcOf b st).settle
  | .stepTimerExpiry st => timerEnded (dmsOf b st).stepTimer
  | .dwellTimerExpiry st => timerEnded (dmsOf b st).dwellTimer
  | .permitRefreshExpiry st => timerEnded (stcOf b st).refresh
  | .blindHoldExpiry z => timerEnded (zoneOf b z).blindHold
  | .regulationEvent z => timerEnded (zoneOf b z).timer
  | .stableDwellExpiry => timerEnded b.scu.dwell
  | .loadingTimerExpiry => timerEnded b.scu.loading
  | .budgetPeriodExpiry => timerEnded b.pwa.timer
  | _ => ∃ r rest, b.mga.requests = r :: rest ∧ decodeRequest r = c

section Due

variable (b : Block)

theorem eventWaiting_iff : eventWaiting b = true ↔ b.cdu.gateOpen = true ∧ b.cdu.latched &&& ~~~b.cdu.mask ≠ 0 := by
  rw [eventWaiting, Bool.and_eq_true, decide_eq_true_eq]
  rfl

theorem eventDue_iff : (eventWaiting b && decide (b.rpu.infoQ.length < Config.infoCapacity)) = true ↔
    isDue b .eventFrameJoin := by
  simp only [Bool.and_eq_true, eventWaiting_iff, decide_eq_true_eq, isDue, Config.infoCapacity]

theorem partMayJoin_iff : partMayJoin b = true ↔
    ¬ (12 ≤ b.rpu.infoQ.length ∨ (b.cdu.gateOpen = true ∧ b.cdu.latched &&& ~~~b.cdu.mask ≠ 0)) := by
  rw [partMayJoin, Bool.and_eq_true, decide_eq_true_eq, Bool.not_eq_true', ← Bool.not_eq_true, eventWaiting_iff, not_or,
    Nat.not_le]

theorem partDue_iff : (b.hst.collection.isSome && partMayJoin b) = true ↔ isDue b .partFrameJoin := by
  rw [Bool.and_eq_true, partMayJoin_iff, Option.isSome_iff_ne_none, not_or, Nat.not_le]
  exact ⟨fun ⟨h1, h2, h3⟩ => ⟨h1, h3, h2⟩, fun ⟨h1, h2, h3⟩ => ⟨h1, h3, h2⟩⟩

theorem cleanDue_iff (p : Port) : cleanDue (portOf b p) = true ↔ isDue b (.linkCleanTimeExpiry p) := by
  simp only [cleanDue, isDue, Bool.and_eq_true, decide_eq_true_eq, and_assoc]

theorem entryDue_iff (i : Fin 96) : entryDue b i = true ↔ isDue b (.sampleEntryStale i) := by
  simp only [entryDue, isDue]
  cases (vget b.tab.map i).config with
  | none => simp
  | some x => simp

theorem curing_iff (st : Station) : stateOf b st = .curing ↔ (stcOf b st).state = .curing := Iff.rfl

theorem accrualDue_iff (st : Station) : accrualDue b st = true ↔ isDue b (.cureAccrualComplete st) := by
  simp only [accrualDue, isDue, curingWith]
  cases (stcOf b st).cycle with
  | none => simp
  | some k =>
    simp [curing_iff, and_assoc]

theorem maxCureDue_iff (st : Station) : maxCureDue b st = true ↔ isDue b (.maximumCureTimeExpiry st) := by
  simp only [maxCureDue, isDue, curingWith]
  cases (stcOf b st).cycle with
  | none => simp
  | some k =>
    simp [curing_iff, and_assoc]

theorem allowanceDue_iff (st : Station) : allowanceDue b st = true ↔ isDue b (.outOfBandAllowanceExceeded st) := by
  have flag : ∀ r : Record, (!hasFlag r.flags .outOfBand) = true ↔ r.flags.getLsbD 6 = false := fun r => by
    rw [Bool.not_eq_true']
    rfl
  simp only [allowanceDue, isDue, curingWith]
  cases (stcOf b st).cycle with
  | none => simp
  | some k =>
    cases openRecordOf b st with
    | none => simp
    | some r =>
      simp only [Bool.and_eq_true, curing_iff, decide_eq_true_eq, flag, Option.some.injEq, exists_eq_left', and_assoc]

end Due

/-- A request command is in no timer's place and is due exactly at the front of the request queue. -/
theorem isDue_request {b : Block} {c : Instr} (h : duePlace c = 2) :
    isDue b c ↔ ∃ r rest, b.mga.requests = r :: rest ∧ decodeRequest r = c := by
  cases c
  case linkCleanTimeExpiry p => cases p <;> cases h
  case sampleEntryStale | blindHoldExpiry | regulationEvent => simp only [duePlace] at h; omega
  case cureAccrualComplete | maximumCureTimeExpiry | outOfBandAllowanceExceeded | settleTimerExpiry | stepTimerExpiry |
      dwellTimerExpiry | permitRefreshExpiry => simp only [duePlace] at h; omega
  case eventFrameJoin | partFrameJoin | stableDwellExpiry | loadingTimerExpiry | budgetPeriodExpiry => cases h
  all_goals rfl

theorem duePlace_decodeRequest (r : Request) : duePlace (decodeRequest r) = 2 := by
  have h := requestOf_decodeRequest r
  cases hc : decodeRequest r
  all_goals rw [hc] at h
  all_goals first | rfl | cases h

theorem isFirst_request (b : Block) : isFirst (isDue b) 2 3 (requestDue b) := by
  have at_two : ∀ d, 2 ≤ duePlace d → duePlace d < 3 → duePlace d = 2 := fun d h1 h2 => by omega
  unfold requestDue
  cases hq : b.mga.requests with
  | nil =>
    refine ⟨nofun, fun _ d hd h1 h2 => ?_⟩
    obtain ⟨r, rest, he, -⟩ := (isDue_request (at_two d h1 h2)).mp hd
    rw [hq] at he
    cases he
  | cons r rest =>
    have hp := duePlace_decodeRequest r
    refine ⟨fun c hc => ?_, nofun⟩
    cases hc
    refine ⟨(isDue_request hp).mpr ⟨r, rest, hq, rfl⟩, hp.ge, by rw [hp]; decide, fun d hd h1 h2 => .inr ?_⟩
    obtain ⟨r', rest', he, hd⟩ := (isDue_request (at_two d h1 h2)).mp hd
    rw [hq] at he
    cases he
    exact hd.symm

/-! ### All events in one order -/

theorem isFirst_links (b : Block) : isFirst (isDue b) 3 5 (linkDue b) := by
  have e : linkDue b = ((if cleanDue b.rpu.inPort = true then some (.linkCleanTimeExpiry .inp) else none) <|>
      (if cleanDue b.rpu.outPort = true then some (.linkCleanTimeExpiry .out) else none)) := by
    unfold linkDue
    split <;> rfl
  rw [e]
  exact (isFirst_single (k := 3) rfl (by decide) (cleanDue_iff b .inp).symm).orElse
    (isFirst_single (k := 4) rfl (by decide) (cleanDue_iff b .out).symm) (by decide) (by decide)

theorem isFirst_stationDue (b : Block) : isFirst (isDue b) 101 115 (stationDue b) := by
  have timer : ∀ {f : Station → Instr} {x : Station → Timer} (_ : ∀ st, isDue b (f st) ↔ timerEnded (x st)) st,
      isDue b (f st) ↔ timerDue (x st) = true := fun h st => (h st).trans (timerDue_iff _).symm
  have settle := isFirst_stations (k := 107) (f := .settleTimerExpiry) (fun _ => rfl) (by decide)
    (timer (x := fun st => (stcOf b st).settle) fun _ => Iff.rfl)
  have stepTimer := isFirst_stations (k := 109) (f := .stepTimerExpiry) (fun _ => rfl) (by decide)
    (timer (x := fun st => (dmsOf b st).stepTimer) fun _ => Iff.rfl)
  have dwell := isFirst_stations (k := 111) (f := .dwellTimerExpiry) (fun _ => rfl) (by decide)
    (timer (x := fun st => (dmsOf b st).dwellTimer) fun _ => Iff.rfl)
  have refresh := isFirst_stations (k := 113) (f := .permitRefreshExpiry) (fun _ => rfl) (by decide)
    (timer (x := fun st => (stcOf b st).refresh) fun _ => Iff.rfl)
  have accrual := isFirst_stations (k := 101) (f := .cureAccrualComplete) (fun _ => rfl) (by decide)
    fun st => (accrualDue_iff b st).symm
  have maxCure := isFirst_stations (k := 103) (f := .maximumCureTimeExpiry) (fun _ => rfl) (by decide)
    fun st => (maxCureDue_iff b st).symm
  have allowance := isFirst_stations (k := 105) (f := .outOfBandAllowanceExceeded) (fun _ => rfl) (by decide)
    fun st => (allowanceDue_iff b st).symm
  have sequencer := stepTimer.orElse (dwell.orElse refresh (by decide) (by decide)) (by decide) (by decide)
  have cure := maxCure.orElse (allowance.orElse (settle.orElse sequencer (by decide) (by decide)) (by decide) (by decide))
    (by decide) (by decide)
  exact accrual.orElse cure (by decide) (by decide)

theorem isFirst_timerAsk {b : Block} {t : Timer} {c : Instr} {k : Nat} (hp : duePlace c = k) (hk : k ≠ 2)
    (hd : isDue b c ↔ timerEnded t) : isFirst (isDue b) k (k + 1) (timerAsk t c) :=
  isFirst_single hp hk (hd.trans (timerDue_iff t).symm)

theorem isFirst_cellDue (b : Block) : isFirst (isDue b) 115 182 (cellDue b) := by
  have blind := isFirst_finRange (k := 115) (f := .blindHoldExpiry) (due := isDue b) (fun _ => rfl) (by decide)
    fun z => (timerDue_iff (zoneOf b z).blindHold).symm
  have regulation := isFirst_finRange (k := 147) (f := .regulationEvent) (due := isDue b) (fun _ => rfl) (by decide)
    fun z => (timerDue_iff (zoneOf b z).timer).symm
  have dwell := isFirst_timerAsk (b := b) (t := b.scu.dwell) (c := .stableDwellExpiry) rfl (by decide) Iff.rfl
  have loading := isFirst_timerAsk (b := b) (t := b.scu.loading) (c := .loadingTimerExpiry) rfl (by decide) Iff.rfl
  have budget := isFirst_timerAsk (b := b) (t := b.pwa.timer) (c := .budgetPeriodExpiry) rfl (by decide) Iff.rfl
  have scale := dwell.orElse (loading.orElse budget (by decide) (by decide)) (by decide) (by decide)
  exact blind.orElse (regulation.orElse scale (by decide) (by decide)) (by decide) (by decide)

/-- The event taken is the first of all that are due (log 9). -/
theorem isFirst_dueCommand (b : Block) : isFirst (isDue b) 0 182 (dueCommand b) := by
  have event := isFirst_single (k := 0) rfl (by decide) (eventDue_iff b).symm
  have part := isFirst_single (k := 1) rfl (by decide) (partDue_iff b).symm
  have entry := isFirst_finRange (k := 5) (f := .sampleEntryStale) (fun _ => rfl) (by decide)
    fun i => (entryDue_iff b i).symm
  have timers := entry.orElse ((isFirst_stationDue b).orElse (isFirst_cellDue b) (by decide) (by decide))
    (by decide) (by decide)
  have later := (isFirst_request b).orElse ((isFirst_links b).orElse timers (by decide) (by decide))
    (by decide) (by decide)
  exact event.orElse (part.orElse later (by decide) (by decide)) (by decide) (by decide)

theorem duePlace_lt (c : Instr) : duePlace c < 182 := by
  cases c
  case linkCleanTimeExpiry p => cases p <;> decide
  case cureAccrualComplete st | maximumCureTimeExpiry st | outOfBandAllowanceExceeded st | settleTimerExpiry st |
      stepTimerExpiry st | dwellTimerExpiry st | permitRefreshExpiry st => cases st <;> decide
  case sampleEntryStale | blindHoldExpiry | regulationEvent => simp only [duePlace]; omega
  case eventFrameJoin | partFrameJoin | stableDwellExpiry | loadingTimerExpiry | budgetPeriodExpiry => decide
  all_goals exact (by decide : 2 < 182)

/-- A request that is due is the front of the request queue. -/
theorem isDue_unique {b : Block} {c d : Instr} (hc : isDue b c) (hd : isDue b d) (h : duePlace d = duePlace c) : d = c := by
  by_cases h2 : duePlace c = 2
  · obtain ⟨r, rest, hq, rfl⟩ := (isDue_request h2).mp hc
    obtain ⟨r', rest', hq', rfl⟩ := (isDue_request (h.trans h2)).mp hd
    rw [hq] at hq'
    cases hq'
    rfl
  · exact duePlace_inj h h2

theorem dueCommand_eq_some {b : Block} {c : Instr} :
    dueCommand b = some c ↔ isDue b c ∧ ∀ d, isDue b d → duePlace c ≤ duePlace d := by
  obtain ⟨hsome, hnone⟩ := isFirst_dueCommand b
  constructor
  · intro h
    obtain ⟨hc, -, -, hmin⟩ := hsome c h
    refine ⟨hc, fun d hd => ?_⟩
    rcases hmin d hd (Nat.zero_le _) (duePlace_lt d) with hlt | rfl
    · exact hlt.le
    · exact le_rfl
  · rintro ⟨hc, hmin⟩
    cases ho : dueCommand b with
    | none => exact absurd (duePlace_lt c) (hnone ho c hc (Nat.zero_le _))
    | some d =>
      obtain ⟨hd, -, -, hd'⟩ := hsome d ho
      rcases hd' c hc (Nat.zero_le _) (duePlace_lt c) with hlt | rfl
      · exact absurd (hmin d hd) (Nat.not_le.mpr hlt)
      · rfl

/-! ### One millisecond -/

/-- A running timer advances up to its length. -/
theorem tickTimer_eq (t : Timer) : tickTimer t = t.map fun r => { r with elapsed := min (r.elapsed + 1) r.length } := by
  cases t <;> rfl

/-- The counts of a cycle that one millisecond moves (R73 to R76, log 34). -/
theorem tickCycle_eq (c : Cycle) : tickCycle c =
    { c with
      chargeWait := if c.waitRunning = true then min (c.chargeWait + 1) 4294967295 else c.chargeWait
      accrued := if c.accruing = true ∧ c.accrued + 1 < c.recipe.cure * 100 then c.accrued + 1 else c.accrued
      accrualUp := decide (c.accrualUp = true ∨ (c.accruing = true ∧ c.recipe.cure * 100 ≤ c.accrued + 1))
      outOfBand := if c.outCounting = true then min (c.outOfBand + 1) 4294967295 else c.outOfBand
      elapsed := if c.elapsedRunning = true then min (c.elapsed + 1) (c.recipe.maxCure * 100) else c.elapsed } := by
  have up : (c.accrualUp || (c.accruing && decide (c.recipe.cure * 100 ≤ c.accrued + 1))) =
      decide (c.accrualUp = true ∨ (c.accruing = true ∧ c.recipe.cure * 100 ≤ c.accrued + 1)) := by simp
  have accrued : (if (c.accruing && decide (c.accrued + 1 < c.recipe.cure * 100)) = true then c.accrued + 1
      else c.accrued) = if c.accruing = true ∧ c.accrued + 1 < c.recipe.cure * 100 then c.accrued + 1 else c.accrued := by
    simp only [Bool.and_eq_true, decide_eq_true_eq]
  rw [tickCycle, up, accrued]
  rfl

theorem tickEntry_eq (e : MapEntry) :
    tickEntry e = { e with age := if e.freshness = .never then e.age else min (e.age + 1) 65535 } := by
  unfold tickEntry
  split <;> rfl

theorem zoneOf_tick (s : Block) (z : Fin 32) : zoneOf (tick s) z = tickZone (zoneOf s z) := by
  rw [zoneOf, tick_zrg, vget_vmap, zoneOf]

/-- The line time's carry (R170). -/
theorem tickStamp_eq {x : Stamp} :
    (x.ms < 999 → tickStamp x = { x with ms := x.ms + 1 }) ∧
      (x.ms = 999 → x.sec < 4294967295 → tickStamp x = { sec := x.sec + 1, ms := 0 }) ∧
      (x.ms = 999 → x.sec = 4294967295 → tickStamp x = { sec := 0, ms := 0 }) := by
  unfold tickStamp
  refine ⟨fun h => if_pos h, fun h hs => ?_, fun h hs => ?_⟩
  · rw [if_neg (by omega), if_neg (show ¬ x.sec = Config.longMax from hs.ne)]
  · rw [if_neg (by omega), if_pos (show x.sec = Config.longMax from hs)]

/-- Settles O2: the events due are found in the order of their places (`dueCommand_eq_some`); with none due the tick is
taken block by block. -/
theorem idleStepIsOneMillisecond : Obligations.IdleStepIsOneMillisecond := by
  unfold Obligations.IdleStepIsOneMillisecond
  intro run long port cycle ended place due s hp
  have hplace : ∀ c, place c = duePlace c := fun c => by
    cases c
    case linkCleanTimeExpiry p => cases p <;> rfl
    all_goals rfl
  have hdue : ∀ c, due s.toBlock c ↔ isDue s.toBlock c := fun c => by cases c <;> exact Iff.rfl
  have hrun : ∀ x, tickTimer x = run x := tickTimer_eq
  have hcycle : ∀ c, tickCycle c = cycle c := tickCycle_eq
  refine ⟨fun c => ?_, fun c hc => ?_, fun hn => ?_⟩
  · simp only [hdue, hplace]
    exact dueCommand_eq_some
  · simp only [step, hp, hc]
  · have hstep : step s = .next { s with toBlock := tick s.toBlock } := by simp only [step, hp, hn]
    refine ⟨_, hstep, hp, fun i => ?_, fun h => ?_, fun x hx h => ?_, fun x hx h hs => ?_, fun x hx h hs => ?_, ?_, ?_,
      ?_, fun st => ?_, fun st => ?_, fun z => ?_, ?_, ?_, ?_, ?_, ?_, ?_⟩
    · simp only [tick, vget_vmap, tickEntry_eq]
    · simp only [tick, h, Option.map_none]
    · simp only [tick, hx, Option.map_some, tickStamp_eq.1 h]
    · simp only [tick, hx, Option.map_some, tickStamp_eq.2.1 h hs]
    · simp only [tick, hx, Option.map_some, tickStamp_eq.2.2 h hs]
    · simp only [tick]
    · simp only [tick]
    · simp only [tick]
      rfl
    · simp only [stcOf_tick, tickStc, hrun, funext hcycle]
    · simp only [dmsOf_tick, tickDms, hrun]
      rfl
    · simp only [zoneOf_tick, tickZone, hrun]
    · simp only [tick]
    · simp only [tick, hrun]
    · simp only [tick, hrun]
    · simp only [tick]
    · simp only [tick]
    · simp only [tick]

end Sys2Proof.Machine
end

section
/-! PROOFS. What READ_STATUS and HISTORY_SUMMARY answer: the fields of every part and the sizes of the bodies (R85, R108, R122,
R146, R167, R180, R185). -/

namespace Sys2Proof.Machine

open Sys2Proof

/-! ### Fields of a body, by width and value -/

/-- The bytes of a list of fields, each with its width and its value. -/
def fieldsBytes (xs : List (Nat × Nat)) : List Byte := xs.flatMap fun x => leBytes x.1 x.2

@[simp] theorem fieldsBytes_nil : fieldsBytes [] = [] := rfl

@[simp] theorem fieldsBytes_cons (n x : Nat) (xs : List (Nat × Nat)) :
    fieldsBytes ((n, x) :: xs) = leBytes n x ++ fieldsBytes xs := rfl

theorem fieldsBytes_append (xs ys : List (Nat × Nat)) : fieldsBytes (xs ++ ys) = fieldsBytes xs ++ fieldsBytes ys :=
  List.flatMap_append

/-- A bit of a flag byte. -/
theorem bitAt_eq (k : Nat) (x : Bool) : bitAt k x = if x = true then 2 ^ k else 0 := by cases x <;> simp [bitAt]

theorem leBytes_one (n : Nat) : leBytes 1 n = [byteOf n] := rfl

theorem leBytes_one_toNat (x : Byte) : leBytes 1 x.toNat = [x] := by rw [leBytes_one, byteOf_toNat]

/-! ### The parts -/

section Parts

variable (s : Block)

theorem stationPart_eq (st : Station) : stationPart s st = fieldsBytes
    [(1, stationStateCode (stcOf s st).state), (1, ((stcOf s st).bound.map fun i => i.val).getD 255),
     (1, bitAt 0 (stcOf s st).production + bitAt 1 (stcOf s st).deferredWake + bitAt 2 (stcOf s st).heatReady +
       bitAt 3 (stcOf s st).settle.isSome),
     (1, bitAt 0 (stcOf s st).closeOk + bitAt 1 (stcOf s st).openOk), (1, noCycleCode (stcOf s st).noCycle),
     (4, cycleFigure s st (·.record)), (2, cycleFigure s st (·.accrued) / 100),
     (4, cycleFigure s st (·.outOfBand) / 100), (4, cycleFigure s st (·.elapsed) / 100)] := by
  have permit : permitByte (stcOf s st).closeOk (stcOf s st).openOk =
      bitAt 0 (stcOf s st).closeOk + bitAt 1 (stcOf s st).openOk := by
    simp only [permitByte, bitAt]
    omega
  have record : permitRecord s st = cycleFigure s st (·.record) := rfl
  simp only [stationPart, permit, record, fieldsBytes_cons, fieldsBytes_nil, List.append_assoc, List.append_nil]
  rfl

theorem sequencerPart_eq (st : Station) : sequencerPart s st = fieldsBytes
    [(1, seqStateCode (dmsOf s st).state), (1, haltCauseCode (dmsOf s st).cause), (1, (dmsOf s st).stepPos),
     (1, (dmsOf s st).mask.toNat), (1, (dmsOf s st).retries), (1, (dmsOf s st).stuck.toNat),
     (1, (dmsOf s st).probeGroup.getD 255), (1, seqFlags (dmsOf s st)), (2, (dmsOf s st).retractPos.getD 65535),
     (2, peakForceOf s st)] := by
  simp only [sequencerPart, fieldsBytes_cons, fieldsBytes_nil, List.append_assoc, List.append_nil, leBytes_one_toNat]
  rfl

/-- The record of an open cycle is the one its slot holds (R173). -/
theorem openRecordOf_eq {st : Station} {cy : Cycle} {i : Fin 48} {r : Record} (hc : (stcOf s st).cycle = some cy)
    (h : openIn s i cy.record r) : openRecordOf s st = some r := by
  obtain ⟨hi, hn, honly⟩ := h
  have none_else : ∀ j, j ≠ i → openWith cy.record (vget s.hst.slots j) = none := fun j hj => by
    have hne := honly j hj
    unfold openWith
    split
    next w hw =>
      rw [hw] at hne
      exact if_neg hne
    next => rfl
  have here : openWith cy.record (vget s.hst.slots i) = some r := by rw [hi]; exact if_pos hn
  rw [openRecordOf, hc]
  cases hf : allSlots.findSome? fun j => openWith cy.record (vget s.hst.slots j) with
  | none =>
    have := List.findSome?_eq_none_iff.mp hf i (List.mem_finRange i)
    rw [here] at this
    cases this
  | some w =>
    obtain ⟨j, -, hj⟩ := List.exists_of_findSome?_eq_some hf
    by_cases e : j = i
    · subst e
      exact hf.trans (hj.symm.trans here)
    · rw [none_else j e] at hj
      cases hj

theorem budgetPart_eq : budgetPart s = fieldsBytes
    [(1, bitAt 0 s.pwa.pressure), (2, s.pwa.factor.c0), (2, s.pwa.factor.c1), (2, s.pwa.factor.c2), (4, s.pwa.load.c0),
     (4, s.pwa.load.c1), (4, s.pwa.load.c2), (4, s.pwa.capacity), (4, s.pwa.allowanceLoad)] := by
  simp [budgetPart, bitAt]

theorem scalePart_eq : scalePart s = fieldsBytes
    [(1, (s.scu.session.map fun v => sessionCode v.state).getD 0),
     (1, (s.scu.session.map fun v => stationNum v.owner).getD 255), (1, (s.scu.session.map fun v => v.attempts).getD 0),
     (1, claimByte s 0), (1, claimByte s 1), (1, scaleFlags s.scu (windowFull s)), (1, s.scu.window.length)] ++
    leInt 4 s.scu.tare ++ leInt 4 (filteredNet s) ++ leInt 4 (spreadOf s) ++ leInt 4 (s.scu.latestGross.getD 0) := by
  simp only [scalePart, fieldsBytes_cons, fieldsBytes_nil, List.append_assoc, List.append_nil]
  rfl

theorem linePart_eq : linePart s = fieldsBytes
    [(1, linkCode s.rpu.inPort.link), (1, linkCode s.rpu.outPort.link), (1, s.rpu.forwardQ.length),
     (1, s.rpu.controlQ.length), (1, s.rpu.infoQ.length), (1, s.mga.requests.length), (1, imageCode s.mga.image),
     (1, s.rpu.ownAddress)] := by
  simp [linePart]

theorem zonePart_eq {z : Fin 32} (h : (zoneOf s z).state ≠ .disabled) : zonePart s z = fieldsBytes
      [(1, zoneStateCode (zoneOf s z).state), (1, zoneCauseCode (zoneOf s z).cause),
       (1, slotNum (zoneOf s z).slot + bitAt 1 (zoneOf s z).inBand + bitAt 2 (slotFresh s z (zoneOf s z).slot) +
         bitAt 3 (zoneOf s z).blindHold.isSome)] ++
    leInt 2 (zoneOf s z).wsp ++
    leInt 2 (if slotFresh s z (zoneOf s z).slot = true then slotHeld s z (zoneOf s z).slot else 0) ++
    fieldsBytes [(2, (zoneOf s z).r), (2, (zoneOf s z).g)] ++ leInt 3 (zoneOf s z).iq ++
    fieldsBytes [(1, (zoneOf s z).faults0), (1, (zoneOf s z).faults1)] := by
  simp only [zonePart, if_neg h, fieldsBytes_cons, fieldsBytes_nil, List.append_assoc, List.append_nil]
  rfl

/-- A DISABLED zone at its reset values shows 0 everywhere (R86). -/
theorem zonePart_reset {z : Fin 32} {e : ZoneEntry} (h : zoneOf s z = resetZone .disabled e) :
    zonePart s z = List.replicate 16 0 := by
  simp only [zonePart, h]
  rfl

end Parts

/-! ### Sizes -/

theorem leInt_length (n : Nat) (x : Int) : (leInt n x).length = n := leBytes_length _ _

theorem zonePart_length (s : Block) (z : Fin 32) : (zonePart s z).length = 16 := by
  unfold zonePart
  dsimp only
  split <;> simp only [List.length_append, leBytes_length, leInt_length]

/-- How many of the numbers below `m` are of a range of `n` from `z`. -/
theorem countP_range (z n : Nat) : ∀ m, (List.range m).countP (fun k => decide (z ≤ k ∧ k < z + n)) =
    min (z + n) m - min z m
  | 0 => by simp
  | m + 1 => by
    rw [List.range_succ, List.countP_append, countP_range z n m, List.countP_singleton]
    simp only [decide_eq_true_eq]
    split <;> omega

theorem filter_finRange_length {z n m : Nat} (h : z + n ≤ m) :
    ((List.finRange m).filter fun k => decide (z ≤ k.val ∧ k.val < z + n)).length = n := by
  have e : (List.finRange m).countP (fun k => decide (z ≤ k.val ∧ k.val < z + n)) =
      (List.range m).countP (fun k => decide (z ≤ k ∧ k < z + n)) := by
    rw [← List.map_coe_finRange_eq_range, List.countP_map]
    rfl
  rw [← List.countP_eq_length_filter, e, countP_range]
  omega

theorem zonesReport_eq (s : Block) (z n : Nat) : zonesReport s z n =
    ((List.finRange 32).filter fun k => decide (z ≤ k.val ∧ k.val < z + n)).flatMap fun k => zonePart s k := by
  simp only [zonesReport, allZones, Bool.decide_and]

theorem zonesReport_length (s : Block) {z n : Nat} (h : z + n ≤ 32) : (zonesReport s z n).length = 16 * n := by
  rw [zonesReport_eq, List.length_flatMap]
  simp only [zonePart_length, List.map_const', List.sum_replicate, smul_eq_mul]
  rw [filter_finRange_length h, Nat.mul_comm]

/-! ### The summary (R180) -/

theorem slotCode_eq_zero (sl : HistorySlot) : isFree sl = decide (slotCode sl = 0) := by
  cases sl with
  | free => rfl
  | held g r => cases g <;> rfl

theorem slotCode_eq (sl : HistorySlot) :
    isHolding .opened sl = decide (slotCode sl = 1) ∧ isHolding .closed sl = decide (slotCode sl = 2) ∧
      isHolding .sent sl = decide (slotCode sl = 3) := by
  cases sl with
  | free => exact ⟨rfl, rfl, rfl⟩
  | held g r => cases g <;> exact ⟨rfl, rfl, rfl⟩

theorem summaryBody_eq (h : Hst) : summaryBody h = fieldsBytes
    ([(1, countSlots isFree h), (1, countSlots (isHolding .opened) h), (1, countSlots (isHolding .closed) h),
      (1, countSlots (isHolding .sent) h), (4, (heldNumbers h).min?.getD 0), (4, (heldNumbers h).max?.getD 0),
      (4, h.counter.getD 0), (1, bitAt 0 h.lineTime.isSome + bitAt 1 h.collection.isSome),
      (4, (h.lineTime.getD { sec := 0, ms := 0 }).sec), (2, (h.lineTime.getD { sec := 0, ms := 0 }).ms)] ++
     allSlots.map fun i => (1, slotCode (vget h.slots i))) := by
  have codes : fieldsBytes (allSlots.map fun i => (1, slotCode (vget h.slots i))) =
      allSlots.map fun i => byteOf (slotCode (vget h.slots i)) := by
    rw [fieldsBytes, List.flatMap_map]
    exact List.flatMap_pure_eq_map _ _
  rw [fieldsBytes_append, codes]
  simp only [summaryBody, stampBytes, fieldsBytes_cons, fieldsBytes_nil, List.append_assoc, List.append_nil]

theorem summaryBody_length (h : Hst) : (summaryBody h).length = 71 := by
  simp only [summaryBody, stampBytes, List.length_append, leBytes_length, List.length_map, allSlots,
    List.length_finRange]

/-! ### The answers -/

theorem ownReadStatus_zones (x y : Byte) (s : Block) : ownReadStatus [2, x, y] s =
    if 32 < x.toNat + y.toNat then refuse .badIndex s else report (zonesReport s x.toNat y.toNat) s := by
  have hx : field [2, x, y] 1 1 = x.toNat := field_one x [y]
  have hy : field [2, x, y] 2 1 = y.toNat := field_one y []
  have h : ownReadStatus [2, x, y] s = if 32 < field [2, x, y] 1 1 + field [2, x, y] 2 1 then refuse .badIndex s
    else report (zonesReport s (field [2, x, y] 1 1) (field [2, x, y] 2 1)) s := rfl
  rw [h, hx, hy]

theorem statusForm_zones {x y : Byte} (h1 : 1 ≤ y.toNat) (h7 : y.toNat ≤ 7) : statusForm [2, x, y] = true := by
  have hy : field [2, x, y] 2 1 = y.toNat := field_one y []
  have h2 : field [2, x, y] 0 1 = 2 := rfl
  simp only [statusForm, hy, h2, h1, h7]
  rfl

section Answers

variable {q : Sender} {s : State} {s1 : Block} {body : List Byte}

/-- A READ_STATUS of the right form ends with its report. -/
theorem finish_readStatus (hi : s1.mga.image ≠ .loading) (ht : takeRequest (mgmtRequest q 0x06 body) s.toBlock = some s1)
    (hf : statusForm body = true) :
    exec (.readStatus q body) s = .next (s.closing (answer q 0x06 (ownReadStatus body s1))) := by
  have h : exec (.readStatus q body) s = finish (whenTaken (mgmtRequest q 0x06 body)
    (serve q 0x06 .read (statusForm body) (ownReadStatus body))) s := rfl
  rw [h, hf]
  exact finish_serve_read ht hi

end Answers

/-- Settles O27: the requests by their answers, each part by its equation. -/
theorem statusAnswers : Obligations.StatusAnswers := by
  intro q s s1 hi
  refine ⟨fun x y => ⟨fun ht => ?_, fun ht => ?_, fun ht h1 h7 => ?_⟩, fun ht => ?_, ?_, ?_, ?_,
    fun z n h => zonesReport_length s1 h, summaryBody_length _, ?_⟩
  · exact finish_readStatus hi ht rfl
  · exact finish_readStatus hi ht rfl
  · rw [finish_readStatus hi ht (statusForm_zones h1 h7), ownReadStatus_zones]
    split <;> rfl
  · exact finish_serve_read ht hi
  · intro le bit
    have hle : le = fieldsBytes := rfl
    have hbit : bit = bitAt := funext fun k => funext fun x => (bitAt_eq k x).symm
    clear_value le bit
    subst hle hbit
    refine ⟨fun st => ⟨stationPart_eq s1 st, sequencerPart_eq s1 st, fun cy i r hc h => ?_, fun hc => ?_⟩, budgetPart_eq s1,
      scalePart_eq s1, linePart_eq s1, fun z => ⟨fun ⟨e, h⟩ => zonePart_reset s1 h, zonePart_eq s1⟩, zonesReport_eq s1, ?_,
      rfl, rfl, rfl, rfl, rfl, rfl, rfl, rfl, rfl, rfl, rfl⟩
    · rw [peakForceOf, openRecordOf_eq s1 hc h]
      rfl
    · rw [peakForceOf, openRecordOf, hc]
      rfl
    · intro h code count nums time
      have hcode : ∀ i, slotCode (vget h.slots i) = code i := fun i => by
        simp only [code]
        cases vget h.slots i with
        | free => rfl
        | held g r => cases g <;> rfl
      have hnums : heldNumbers h = nums := by
        simp only [heldNumbers, nums, allSlots]
        congr 1
        funext i
        cases vget h.slots i <;> rfl
      have hcount : count 0 = countSlots isFree h ∧ count 1 = countSlots (isHolding .opened) h ∧
          count 2 = countSlots (isHolding .closed) h ∧ count 3 = countSlots (isHolding .sent) h := by
        simp only [count, ← hcode, countSlots, slotCode_eq_zero, slotCode_eq]
        exact ⟨rfl, rfl, rfl, rfl⟩
      obtain ⟨h0, h1, h2, h3⟩ := hcount
      rw [h0, h1, h2, h3, ← hnums]
      simp only [← hcode]
      exact summaryBody_eq h
  · simp only [stationPart, sequencerPart, List.length_append, leBytes_length, List.length_singleton]
  · simp only [budgetPart, scalePart, linePart, List.length_append, leBytes_length, leInt_length]
  · simp only [counterBytes, List.length_append, leBytes_length]

end Sys2Proof.Machine
end

section
/-! PROOFS. The bytes of the table entries: what TABLE_READ answers (R186), and that every entry in range is read back from
its own bytes (R26, R43, R45, R48, R50, R53, R54). -/

namespace Sys2Proof.Machine

open Sys2Proof

/-! ### TABLE_READ (R186) -/

theorem indexOf_eq_none {n : Nat} {i : Int} : indexOf n i = none ↔ i < 0 ∨ (n : Int) ≤ i := by
  unfold indexOf
  split
  · split
    · simp only [reduceCtorEq, false_iff]
      omega
    · simp only [true_iff]
      omega
  · simp only [true_iff]
    omega

theorem indexOf_val {n : Nat} (k : Fin n) : indexOf n (k.val : Int) = some k := by
  simp [indexOf]

/-- What stands outside a table (R43). -/
theorem readEntry_eq_none (s : Block) (t : TableId) (i : Int) :
    readEntry s t i = none ↔ (i < 0 ∨ (tableCount t : Int) ≤ i) := by
  cases t with
  | zone | recipe | step | map => exact Option.map_eq_none_iff.trans indexOf_eq_none
  | line =>
    change (if i = 0 then _ else _) = none ↔ (i < 0 ∨ ((1 : Nat) : Int) ≤ i)
    split
    · simp only [reduceCtorEq, false_iff]
      omega
    · simp only [true_iff]
      omega
  | station =>
    change _ ↔ (i < 0 ∨ ((2 : Nat) : Int) ≤ i)
    by_cases h2 : 1 < i.toNat
    · simp only [readEntry, stationOf_eq_none h2, true_iff]
      omega
    · by_cases h0 : 0 ≤ i
      · obtain rfl | rfl : i = 0 ∨ i = 1 := by omega
        · simp [readEntry, stationOf]
        · simp [readEntry, stationOf]
      · have hnone : readEntry s .station i = none := by
          simp only [readEntry, h0, decide_false]
          split
          next h => cases h
          next => rfl
        exact ⟨fun _ => .inl (by omega), fun _ => hnone⟩

/-- Entries that are in the table are read one after another (R186). -/
theorem readEntries_append {s : Block} {t : TableId} {d : Int} {es : List (List Byte)} {i : Int}
    (h : ∀ k, k < es.length → readEntry s t (i + k * d) = es[k]?) (m w : Nat) (acc : List Byte) :
    readEntries s t d (es.length + m) i w acc =
      readEntries s t d m (i + es.length * d) (w + es.length) (acc ++ es.flatten) := by
  induction es generalizing i w acc with
  | nil => simp
  | cons e es ih =>
    have h0 : readEntry s t i = some e := by simpa using h 0 (by simp)
    have hrest : ∀ k, k < es.length → readEntry s t (i + d + k * d) = es[k]? := fun k hk => by
      have := h (k + 1) (by simpa using hk)
      rw [List.getElem?_cons_succ] at this
      rw [← this]
      congr 1
      push_cast
      ring
    have hn : (e :: es).length + m = (es.length + m) + 1 := by simp only [List.length_cons]; omega
    have hi : i + d + es.length * d = i + (e :: es).length * d := by simp only [List.length_cons]; push_cast; ring
    have hw : w + 1 + es.length = w + (e :: es).length := by simp only [List.length_cons]; omega
    rw [hn, readEntries, h0, ← hi, ← hw, List.flatten_cons, ← List.append_assoc]
    exact ih hrest (w + 1) (acc ++ e)

section Read

variable {q : Sender} {t : TableId} {id start stepB count : Byte} {d : Int} {s : State} {s1 : Block}

/-- A TABLE_READ of the right form ends with what its entries' loop answers. -/
theorem finish_tableRead (ht : takeRequest (mgmtRequest q 0x03 [id, start, stepB, count]) s.toBlock = some s1)
    (hi : s1.mga.image ≠ .loading) (htab : tableOf id.toNat = some t) (hd : stepByte stepB.toNat = some d)
    (hsize : count.toNat * readSize t ≤ 116) {st : Status} {w : Nat} {bs : List Byte}
    (h : readEntries s1 t d count.toNat start.toNat 0 [] = (st, w, bs)) :
    exec (.tableRead q [id, start, stepB, count]) s =
      .next (s.closing (reply q 0x03 st (byteOf w :: bs) s1)) := by
  have hid : field [id, start, stepB, count] 0 1 = id.toNat := field_one _ _
  have hst : field [id, start, stepB, count] 1 1 = start.toNat := field_one start [stepB, count]
  have hstep : field [id, start, stepB, count] 2 1 = stepB.toNat := field_one stepB [count]
  have hcount : field [id, start, stepB, count] 3 1 = count.toNat := field_one count []
  have hknown : tableUnknown [id, start, stepB, count] = false := by
    have h5 : ¬ 5 < id.toNat := fun hlt => by
      rw [show tableOf id.toNat = none from by
        unfold tableOf
        split <;> first | omega | rfl] at htab
      cases htab
    simp only [tableUnknown, hid, h5, decide_false, Bool.and_false]
  have hform : readForm t [id, start, stepB, count] = true := by
    simp only [readForm, hstep, hd, hcount, hsize]
    rfl
  have howner : ownTableRead t [id, start, stepB, count] s1 = { status := st, body := byteOf w :: bs, after := s1 } := by
    simp only [ownTableRead, hstep, hd, hcount, hst, Option.getD_some, h]
    rfl
  have hexec : exec (.tableRead q [id, start, stepB, count]) s = finish (whenTaken
    (mgmtRequest q 0x03 [id, start, stepB, count]) (serveTableRead q [id, start, stepB, count])) s := rfl
  rw [hexec, finish_taken ht, serveTableRead, if_neg hi, hknown, hid, htab]
  simp only [Bool.false_eq_true, if_false, hform, serve_read hi, howner]
  rfl

end Read

/-- Settles O28: the loop read to its end or to the first index outside. -/
theorem tableReadAnswer : Obligations.TableReadAnswer := by
  intro q t id start stepB count d s s1 body ht hi htab hd hsize
  refine ⟨fun es hlen hes => ?_, fun es hlen hes hnone => ?_, readEntry_eq_none s1 t, rfl,
    fun z => by rw [readEntry, indexOf_val]; rfl, fun k => by rw [readEntry, indexOf_val]; rfl,
    fun k => by rw [readEntry, indexOf_val]; rfl, fun st => by cases st <;> rfl, rfl,
    fun k => by rw [readEntry, indexOf_val]; rfl, rfl⟩
  · have h := readEntries_append (fun k hk => hes k (hlen ▸ hk)) 0 0 []
    rw [Nat.add_zero, hlen, readEntries, Nat.zero_add, List.nil_append] at h
    rw [finish_tableRead ht hi htab hd hsize h, byteOf_toNat]
  · obtain ⟨m, hm⟩ : ∃ m, count.toNat = es.length + (m + 1) := ⟨count.toNat - es.length - 1, by omega⟩
    have h := readEntries_append hes (m + 1) 0 []
    rw [← hm, readEntries, hnone, Nat.zero_add, List.nil_append] at h
    exact finish_tableRead ht hi htab hd hsize h

/-! ### Fields that are read back -/

section Fields

variable {n k m x : Nat} {bs : List Byte}

/-- The first field of a body. -/
theorem field_first (h : x < 256 ^ n) : field (leBytes n x ++ bs) 0 n = x := by
  rw [field, List.drop_zero, List.take_left' (leBytes_length n x), leNat_leBytes_of_lt h]

/-- The only field of a body. -/
theorem field_only (h : x < 256 ^ n) : field (leBytes n x) 0 n = x := by
  rw [← List.append_nil (leBytes n x), field_first h]

/-- A field behind the first. -/
theorem field_later (h : n ≤ k) : field (leBytes n x ++ bs) k m = field bs (k - n) m := by
  rw [field, field, List.drop_append, List.drop_eq_nil_of_le ((leBytes_length n x).le.trans h), leBytes_length,
    List.nil_append]

end Fields

theorem flagOf_toNat (b : Bool) : flagOf b.toNat = some b := by cases b <;> rfl

theorem stationOf_stationNum (st : Station) : stationOf (stationNum st) = some st := by cases st <;> rfl

theorem platenOf_platenNum (p : Platen) : platenOf (platenNum p) = some p := by cases p <;> rfl

theorem stepIndexOf_val (i : Fin 64) : stepIndexOf i.val = some i := dif_pos i.isLt

theorem nextOf_nextNum (i : Option (Fin 64)) : nextOf (nextNum i) = some i := by
  cases i with
  | none => rfl
  | some i => rw [nextNum, nextOf, if_neg (by omega), stepIndexOf_val]; rfl

theorem toSigned_ofSigned_sixteen {v : Int} (h1 : -32768 ≤ v) (h2 : v ≤ 32767) : toSigned 16 (ofSigned 16 v) = v :=
  toSigned_ofSigned (n := 15) (by norm_num; omega) (by norm_num; omega)

theorem toSigned_ofSigned_twentyFour {v : Int} (h1 : -8388608 ≤ v) (h2 : v ≤ 8388607) :
    toSigned 24 (ofSigned 24 v) = v :=
  toSigned_ofSigned (n := 23) (by norm_num; omega) (by norm_num; omega)

theorem toNat_lt_byte (b : Bool) : b.toNat < 256 ^ 1 := by cases b <;> decide

theorem stationNum_lt_byte (st : Station) : stationNum st < 256 ^ 1 := by cases st <;> decide

theorem platenNum_lt_byte (p : Platen) : platenNum p < 256 ^ 1 := by cases p <;> decide

theorem nextNum_lt_byte (i : Option (Fin 64)) : nextNum i < 256 ^ 1 := by
  cases i with
  | none => decide
  | some i => simp only [nextNum]; omega

theorem zoneEntryOf_bytes {e : ZoneEntry} (h : zoneInRange e = true) : zoneEntryOf (zoneEntryBytes e) = some e := by
  have hr := h
  simp only [zoneInRange, within, Bool.and_eq_true, decide_eq_true_eq] at hr
  have hback : toSigned 16 (ofSigned 16 e.offset) = e.offset := toSigned_ofSigned_sixteen (by omega) (by omega)
  have hoffset : ofSigned 16 e.offset < 256 ^ 2 := ofSigned_lt e.offset
  unfold zoneEntryOf zoneEntryBytes leInt fieldInt
  simp only [List.append_assoc]
  simp only [field_later, Nat.reduceLeDiff, Nat.reduceSub, Nat.reduceMul, le_refl]
  generalize ofSigned 16 e.offset = o at hback hoffset ⊢
  simp (disch := omega) only [field_first, field_only, flagOf_toNat, stationOf_stationNum, platenOf_platenNum, hback,
    field_first (toNat_lt_byte _), field_first (stationNum_lt_byte _), field_first (platenNum_lt_byte _)]
  simp only [Option.bind_eq_bind, Option.bind_some]
  exact if_pos h

theorem recipeOf_bytes {e : Recipe} (h : recipeInRange e = true) (hrev : e.revision < 256) :
    recipeOf (recipeBytes e) = some e := by
  have hr := h
  have hfirst : e.firstStep.val < 256 ^ 1 := by omega
  simp only [recipeInRange, within, Bool.and_eq_true, decide_eq_true_eq] at hr
  unfold recipeOf recipeBytes
  simp only [List.append_assoc]
  simp only [field_later, Nat.reduceLeDiff, Nat.reduceSub, le_refl]
  simp (disch := omega) only [field_first, field_only, flagOf_toNat, stepIndexOf_val, field_first (toNat_lt_byte _)]
  simp only [Option.bind_eq_bind, Option.bind_some]
  exact if_pos h

theorem stepEntryOf_bytes {e : StepEntry} (h : stepInRange e = true) : stepEntryOf (stepEntryBytes e) = some e := by
  have hr := h
  simp only [stepInRange, within, Bool.and_eq_true, decide_eq_true_eq] at hr
  have hmask : (stepEntryBytes e).getD 1 0 = e.copy.mask := rfl
  unfold stepEntryOf
  rw [hmask]
  unfold stepEntryBytes
  simp only [List.append_assoc, ← leBytes_one_toNat e.copy.mask]
  simp only [field_later, Nat.reduceLeDiff, Nat.reduceSub, le_refl]
  simp (disch := omega) only [field_first, flagOf_toNat, nextOf_nextNum, field_first (toNat_lt_byte _),
    field_only (nextNum_lt_byte _)]
  simp only [Option.bind_eq_bind, Option.bind_some]
  exact if_pos h

theorem stationEntryOf_bytes {e : StationEntry} (h : stationInRange e = true) :
    stationEntryOf (stationEntryBytes e) = some e := by
  have hr := h
  simp only [stationInRange, within, Bool.and_eq_true, decide_eq_true_eq] at hr
  unfold stationEntryOf stationEntryBytes
  simp only [List.append_assoc]
  simp only [field_later, Nat.reduceLeDiff, Nat.reduceSub, le_refl]
  simp (disch := omega) only [field_first, field_only]
  exact if_pos h

theorem lineOf_bytes {e : LineSettings} (h : lineInRange e = true) : lineOf (lineBytes e) = some e := by
  have hr := h
  simp only [lineInRange, within, Bool.and_eq_true, Bool.or_eq_true, decide_eq_true_eq] at hr
  have hback : toSigned 24 (ofSigned 24 e.zero) = e.zero := toSigned_ofSigned_twentyFour (by omega) (by omega)
  have hzero : ofSigned 24 e.zero < 256 ^ 3 := ofSigned_lt e.zero
  unfold lineOf lineBytes leInt fieldInt
  simp only [List.append_assoc]
  simp only [field_later, Nat.reduceLeDiff, Nat.reduceSub, Nat.reduceMul, le_refl]
  generalize ofSigned 24 e.zero = o at hback hzero ⊢
  simp (disch := omega) only [field_first, field_only, hback]
  exact if_pos h

/-! ### Sample Map entries (R26) -/

theorem targetOf_codes (t : Target) : targetOf (targetCodes t).1 (targetCodes t).2.1 (targetCodes t).2.2 = some t := by
  cases t with
  | zoneSensor z sl =>
    have hz : zoneIndexOf z.val = some z := dif_pos z.isLt
    have hs : slotOf (slotNum sl) = some sl := by cases sl <;> rfl
    simp only [targetCodes, targetOf, hz, hs, Option.bind_eq_bind, Option.bind_some]
  | scaleRaw => rfl
  | scaleDone => rfl
  | stationSignal st g =>
    have hg : signalOf (signalNum g) = some g := by cases g <;> rfl
    simp only [targetCodes, targetOf, stationOf_stationNum, hg, Option.bind_eq_bind, Option.bind_some]

/-- A target in use has another kind than NONE, and its codes are bytes. -/
theorem targetCodes_lt (t : Target) : (targetCodes t).1 ≠ 0 ∧ (targetCodes t).1 < 256 ^ 1 ∧ (targetCodes t).2.1 < 256 ^ 1 ∧
    (targetCodes t).2.2 < 256 ^ 1 := by
  cases t with
  | zoneSensor z sl =>
    refine ⟨(by decide : (1 : Nat) ≠ 0), (by decide : (1 : Nat) < 256 ^ 1), ?_, ?_⟩
    · simp only [targetCodes]
      omega
    · change slotNum sl < 256 ^ 1
      cases sl <;> decide
  | scaleRaw => decide
  | scaleDone => decide
  | stationSignal st g => cases st <;> cases g <;> decide

theorem mapConfigOf_bytes {c : Option MapConfig} (h : ∀ x, c = some x → mapInRange x = true) :
    mapConfigOf (mapConfigBytes c) = some c := by
  cases c with
  | none => rfl
  | some c =>
    have hr := h c rfl
    obtain ⟨hkind, h1, h2, h3⟩ := targetCodes_lt c.target
    have hback := targetOf_codes c.target
    have hin : mapInRange { c with } = true := hr
    simp only [mapInRange, within, Bool.and_eq_true, decide_eq_true_eq] at hr
    obtain ⟨⟨⟨hnode, hchannel⟩, hfresh⟩, hjump⟩ := hr
    have hlimit : c.jumpLimit < 256 ^ 2 := by
      split at hjump
      · simp only [Bool.and_eq_true, decide_eq_true_eq] at hjump
        omega
      · rw [decide_eq_true_eq] at hjump
        omega
    unfold mapConfigOf mapConfigBytes
    simp only [List.append_assoc]
    simp only [field_later, Nat.reduceLeDiff, Nat.reduceSub, le_refl]
    simp (disch := omega) only [field_first, field_first h1, field_first h2, field_first h3, field_only, hkind, if_false,
      hback, Option.bind_eq_bind, Option.bind_some]
    exact if_pos hin

/-! ### What is read is in range -/

theorem zoneEntryOf_inRange {bs : List Byte} {e : ZoneEntry} (h : zoneEntryOf bs = some e) : zoneInRange e = true := by
  unfold zoneEntryOf at h
  obtain ⟨_, -, h⟩ := Option.bind_eq_some_iff.mp h
  obtain ⟨_, -, h⟩ := Option.bind_eq_some_iff.mp h
  obtain ⟨_, -, h⟩ := Option.bind_eq_some_iff.mp h
  obtain ⟨hr, he⟩ := Option.ite_none_right_eq_some.mp h
  cases he
  exact hr

theorem recipeOf_inRange {bs : List Byte} {e : Recipe} (h : recipeOf bs = some e) : recipeInRange e = true := by
  unfold recipeOf at h
  obtain ⟨_, -, h⟩ := Option.bind_eq_some_iff.mp h
  obtain ⟨_, -, h⟩ := Option.bind_eq_some_iff.mp h
  obtain ⟨hr, he⟩ := Option.ite_none_right_eq_some.mp h
  cases he
  exact hr

theorem stepEntryOf_inRange {bs : List Byte} {e : StepEntry} (h : stepEntryOf bs = some e) : stepInRange e = true := by
  unfold stepEntryOf at h
  obtain ⟨_, -, h⟩ := Option.bind_eq_some_iff.mp h
  obtain ⟨_, -, h⟩ := Option.bind_eq_some_iff.mp h
  obtain ⟨hr, he⟩ := Option.ite_none_right_eq_some.mp h
  cases he
  exact hr

theorem stationEntryOf_inRange {bs : List Byte} {e : StationEntry} (h : stationEntryOf bs = some e) :
    stationInRange e = true := by
  obtain ⟨hr, he⟩ := Option.ite_none_right_eq_some.mp h
  cases he
  exact hr

theorem lineOf_inRange {bs : List Byte} {e : LineSettings} (h : lineOf bs = some e) : lineInRange e = true := by
  obtain ⟨hr, he⟩ := Option.ite_none_right_eq_some.mp h
  cases he
  exact hr

theorem mapConfigOf_inRange {bs : List Byte} {e : MapConfig} (h : mapConfigOf bs = some (some e)) :
    mapInRange e = true := by
  unfold mapConfigOf at h
  split at h
  · cases h
  · obtain ⟨_, -, h⟩ := Option.bind_eq_some_iff.mp h
    obtain ⟨hr, he⟩ := Option.ite_none_right_eq_some.mp h
    cases he
    exact hr

theorem stationEntryBytes_length (e : StationEntry) : (stationEntryBytes e).length = 6 := by
  unfold stationEntryBytes
  repeat rw [List.length_append, leBytes_length]
  rw [leBytes_length]

theorem lineBytes_length (e : LineSettings) : (lineBytes e).length = 31 := by
  unfold lineBytes leInt
  repeat rw [List.length_append, leBytes_length]
  rw [leBytes_length]

/-- Settles O53, table by table. -/
theorem tableEntriesRoundTrip : Obligations.TableEntriesRoundTrip := by
  unfold Obligations.TableEntriesRoundTrip
  refine ⟨fun e h => ⟨zoneEntryOf_bytes h, zoneEntryBytes_length e⟩,
    fun e h hrev => ⟨recipeOf_bytes h hrev, recipeBytes_length e⟩,
    fun e h => ⟨stepEntryOf_bytes h, stepEntryBytes_length e⟩,
    fun e h => ⟨stationEntryOf_bytes h, stationEntryBytes_length e⟩,
    fun e h => ⟨lineOf_bytes h, lineBytes_length e⟩, fun c h => ⟨mapConfigOf_bytes h, mapConfigBytes_length c⟩, ?_⟩
  exact ⟨fun _ _ => zoneEntryOf_inRange, fun _ _ => recipeOf_inRange, fun _ _ => stepEntryOf_inRange,
    fun _ _ => stationEntryOf_inRange, fun _ _ => lineOf_inRange, fun _ _ => mapConfigOf_inRange⟩

end Sys2Proof.Machine
end

section
/-! PROOFS. The configuration image (R190, R191): what stands where in it, what a load of it gives, and the commands that
store and load it. -/

namespace Sys2Proof.Machine

open Sys2Proof

/-! ### Entries of an image -/

/-- An entry among others of its size. -/
theorem take_drop_flatMap {α : Type} {f : α → List Byte} {n : Nat} (hf : ∀ x, (f x).length = n) {xs : List α} {i : Nat}
    (hi : i < xs.length) (post : List Byte) : ((xs.flatMap f ++ post).drop (i * n)).take n = f xs[i] := by
  induction xs generalizing i with
  | nil => cases hi
  | cons x xs ih =>
    rw [List.flatMap_cons, List.append_assoc]
    cases i with
    | zero => rw [Nat.zero_mul, List.drop_zero, List.take_left' (hf x)]; rfl
    | succ i =>
      have h := ih (Nat.lt_of_succ_lt_succ hi)
      rw [Nat.succ_mul, Nat.add_comm, ← List.drop_drop, List.drop_left' (hf x), h]
      rfl

/-- An entry of a table that stands in an image. -/
theorem imageEntry_eq {α : Type} {f : α → List Byte} {t : TableId} (hf : ∀ x, (f x).length = writtenSize t) {xs : List α}
    {i : Nat} (hi : i < xs.length) {img pre post : List Byte} (himg : img = pre ++ (xs.flatMap f ++ post))
    (hpre : pre.length = imageBase t) : imageEntry img t i = f xs[i] := by
  rw [imageEntry, himg, ← hpre, ← List.drop_drop, List.drop_left' rfl, take_drop_flatMap hf hi]

section Image

variable (t : Tables) (mask : BitVec 23)

theorem zonesBytes_length : (t.zones.toList.flatMap zoneEntryBytes).length = 1056 := by
  rw [flatMap_length zoneEntryBytes 33 zoneEntryBytes_length, Vector.length_toList]

theorem recipesBytes_length : (t.recipes.toList.flatMap recipeBytes).length = 576 := by
  rw [flatMap_length recipeBytes 36 recipeBytes_length, Vector.length_toList]

theorem stepsBytes_length : (t.steps.toList.flatMap stepEntryBytes).length = 768 := by
  rw [flatMap_length stepEntryBytes 12 stepEntryBytes_length, Vector.length_toList]

theorem mapBytes_length : (t.map.toList.flatMap fun e => mapConfigBytes e.config).length = 864 := by
  rw [flatMap_length (fun e : MapEntry => mapConfigBytes e.config) 9 (fun e => mapConfigBytes_length _),
    Vector.length_toList]

/-- An image, part by part (R190). -/
theorem imageOf_eq : ∃ check : List Byte, imageOf t mask =
    leBytes 2 Config.imageSignature ++ (t.zones.toList.flatMap zoneEntryBytes ++ (t.recipes.toList.flatMap recipeBytes ++
      (t.steps.toList.flatMap stepEntryBytes ++ ([t.stations.a, t.stations.b].flatMap stationEntryBytes ++
        ([t.line].flatMap lineBytes ++ (t.map.toList.flatMap (fun e => mapConfigBytes e.config) ++
          (leBytes 3 mask.toNat ++ check))))))) := by
  refine ⟨leBytes 2 (frameCheck (tablesBytes t ++ leBytes 3 mask.toNat)).toNat, ?_⟩
  have h : imageOf t mask = leBytes 2 Config.imageSignature ++ (tablesBytes t ++ leBytes 3 mask.toNat) ++
    leBytes 2 (frameCheck (tablesBytes t ++ leBytes 3 mask.toNat)).toNat := rfl
  rw [h]
  generalize leBytes 2 (frameCheck (tablesBytes t ++ leBytes 3 mask.toNat)).toNat = check
  unfold tablesBytes
  simp only [List.append_assoc, List.flatMap_cons, List.flatMap_nil, List.nil_append]

theorem imageEntry_zone (z : Fin 32) : imageEntry (imageOf t mask) .zone z.val = zoneEntryBytes (vget t.zones z) := by
  obtain ⟨check, h⟩ := imageOf_eq t mask
  rw [imageEntry_eq (f := zoneEntryBytes) (t := .zone) zoneEntryBytes_length
    (show z.val < t.zones.toList.length by rw [Vector.length_toList]; exact z.isLt) h rfl]
  simp [vget]

theorem imageEntry_recipe (k : Fin 16) :
    imageEntry (imageOf t mask) .recipe k.val = recipeBytes (vget t.recipes k) := by
  obtain ⟨check, h⟩ := imageOf_eq t mask
  rw [← List.append_assoc] at h
  rw [imageEntry_eq (f := recipeBytes) (t := .recipe) recipeBytes_length
    (show k.val < t.recipes.toList.length by rw [Vector.length_toList]; exact k.isLt) h
    (by rw [List.length_append, leBytes_length, zonesBytes_length]; rfl)]
  simp [vget]

theorem imageEntry_step (k : Fin 64) : imageEntry (imageOf t mask) .step k.val = stepEntryBytes (vget t.steps k) := by
  obtain ⟨check, h⟩ := imageOf_eq t mask
  rw [← List.append_assoc, ← List.append_assoc] at h
  rw [imageEntry_eq (f := stepEntryBytes) (t := .step) stepEntryBytes_length
    (show k.val < t.steps.toList.length by rw [Vector.length_toList]; exact k.isLt) h
    (by simp only [List.length_append, leBytes_length, zonesBytes_length, recipesBytes_length]; rfl)]
  simp [vget]

theorem imageEntry_station (st : Station) :
    imageEntry (imageOf t mask) .station (stationNum st) = stationEntryBytes (t.stations.get st) := by
  obtain ⟨check, h⟩ := imageOf_eq t mask
  rw [← List.append_assoc, ← List.append_assoc, ← List.append_assoc] at h
  have hpre := show (leBytes 2 Config.imageSignature ++ t.zones.toList.flatMap zoneEntryBytes ++
      t.recipes.toList.flatMap recipeBytes ++ t.steps.toList.flatMap stepEntryBytes).length = imageBase .station by
    simp only [List.length_append, leBytes_length, zonesBytes_length, recipesBytes_length, stepsBytes_length]; rfl
  cases st with
  | a =>
    exact imageEntry_eq (f := stationEntryBytes) (t := .station) stationEntryBytes_length (i := 0)
      (xs := [t.stations.a, t.stations.b]) (by simp) h hpre
  | b =>
    exact imageEntry_eq (f := stationEntryBytes) (t := .station) stationEntryBytes_length (i := 1)
      (xs := [t.stations.a, t.stations.b]) (by simp) h hpre

theorem imageEntry_line : imageEntry (imageOf t mask) .line 0 = lineBytes t.line := by
  obtain ⟨check, h⟩ := imageOf_eq t mask
  rw [← List.append_assoc, ← List.append_assoc, ← List.append_assoc, ← List.append_assoc] at h
  refine imageEntry_eq (f := lineBytes) (t := .line) lineBytes_length (xs := [t.line]) (i := 0) (by simp) h ?_
  simp only [List.length_append, leBytes_length, zonesBytes_length, recipesBytes_length, stepsBytes_length,
    List.flatMap_cons, List.flatMap_nil, stationEntryBytes_length, List.length_nil]
  rfl

theorem imageEntry_map (i : Fin 96) :
    imageEntry (imageOf t mask) .map i.val = mapConfigBytes (vget t.map i).config := by
  obtain ⟨check, h⟩ := imageOf_eq t mask
  rw [← List.append_assoc, ← List.append_assoc, ← List.append_assoc, ← List.append_assoc, ← List.append_assoc] at h
  rw [imageEntry_eq (f := fun e : MapEntry => mapConfigBytes e.config) (t := .map) (fun e => mapConfigBytes_length _)
    (show i.val < t.map.toList.length by rw [Vector.length_toList]; exact i.isLt) h ?_]
  · simp [vget]
  · simp only [List.length_append, leBytes_length, zonesBytes_length, recipesBytes_length, stepsBytes_length,
      List.flatMap_cons, List.flatMap_nil, stationEntryBytes_length, lineBytes_length, List.length_nil]
    rfl

theorem loadMask_imageOf : loadMask (imageOf t mask) = mask := by
  obtain ⟨check, h⟩ := imageOf_eq t mask
  have hmask : mask.toNat < 256 ^ 3 := mask.isLt.trans (by decide)
  simp only [← List.append_assoc] at h
  rw [List.append_assoc] at h
  have hpre : ∀ {pre rest : List Byte}, pre.length = 3309 → field (pre ++ rest) maskBase 3 = field rest 0 3 := by
    intro pre rest hlen
    rw [field, field, maskBase, List.drop_left' hlen, List.drop_zero]
  rw [loadMask, h, hpre ?_, field_first hmask, BitVec.ofNat_toNat, BitVec.setWidth_eq]
  simp only [List.length_append, leBytes_length, zonesBytes_length, recipesBytes_length, stepsBytes_length,
    List.flatMap_cons, List.flatMap_nil, stationEntryBytes_length, lineBytes_length, List.length_nil, mapBytes_length]

end Image

/-! ### Loading an image of sound tables (R28, R44) -/

/-- A fold over the indices passes through the states of `P`. -/
theorem foldl_finRange {α : Type} {n : Nat} {f : α → Fin n → α} (P : Nat → α) (h : ∀ i : Fin n, f (P i.val) i = P (i.val + 1)) :
    (List.finRange n).foldl f (P 0) = P n := by
  induction n with
  | zero => rfl
  | succ n ih =>
    rw [List.finRange_succ_last, List.foldl_append, List.foldl_map, ih (f := fun x i => f x i.castSucc) fun i => h i.castSucc]
    exact h (Fin.last n)

/-- A vector whose entries from `k` on are still the default. -/
def loadedTo {α : Type} {n : Nat} (v : Vector α n) (d : α) (k : Nat) : Vector α n :=
  Vector.ofFn fun i => if i.val < k then vget v i else d

section Loaded

variable {α : Type} {n : Nat} (v : Vector α n) (d : α)

theorem vget_loadedTo (k : Nat) (i : Fin n) : vget (loadedTo v d k) i = if i.val < k then vget v i else d := by
  simp [vget, loadedTo]

theorem loadedTo_zero : loadedTo v d 0 = Vector.replicate n d := by
  apply vget_ext
  intro i
  rw [vget_loadedTo, vget_replicate, if_neg (Nat.not_lt_zero _)]

theorem loadedTo_all : loadedTo v d n = v := by
  apply vget_ext
  intro i
  rw [vget_loadedTo, if_pos i.isLt]

theorem vset_loadedTo (i : Fin n) : vset (loadedTo v d i.val) i (vget v i) = loadedTo v d (i.val + 1) := by
  apply vget_ext
  intro j
  rw [vget_vset, vget_loadedTo, vget_loadedTo]
  by_cases h : i = j
  · subst h
    rw [if_pos rfl, if_pos (Nat.lt_succ_self _)]
  · have hne : i.val ≠ j.val := fun e => h (Fin.ext e)
    rw [if_neg h]
    by_cases hj : j.val < i.val
    · rw [if_pos hj, if_pos (by omega)]
    · rw [if_neg hj, if_neg (by omega)]

end Loaded

/-- Fewer enabled entries pass the checks too (R46). -/
theorem zoneTableOk_of_sub {t u : Vector ZoneEntry 32} (h : zoneTableOk t = true)
    (hs : ∀ z, vget u z = vget t z ∨ (vget u z).enabled = false) : zoneTableOk u = true := by
  have sub : ((allZones.map (vget u)).filter (·.enabled)).Sublist ((allZones.map (vget t)).filter (·.enabled)) := by
    induction allZones with
    | nil => exact List.Sublist.refl _
    | cons z l ih =>
      rw [List.map_cons, List.map_cons]
      rcases hs z with e | e
      · rw [e, List.filter_cons, List.filter_cons]
        split
        · exact ih.cons_cons _
        · exact ih
      · rw [List.filter_cons_of_neg (by rw [e]; decide), List.filter_cons]
        split
        · exact ih.cons _
        · exact ih
  simp only [zoneTableOk, Bool.and_eq_true, decide_eq_true_eq] at h ⊢
  obtain ⟨hnodes, hkeys⟩ := h
  refine ⟨le_trans ?_ hnodes, hkeys.sublist (sub.map _)⟩
  rw [← List.card_toFinset, ← List.card_toFinset]
  refine Finset.card_le_card fun x hx => ?_
  rw [List.mem_toFinset] at hx ⊢
  exact (sub.map _).subset hx

theorem loadZones_imageOf {t : Tables} (mask : BitVec 23) (hr : ∀ z, zoneInRange (vget t.zones z) = true)
    (hok : zoneTableOk t.zones = true) : loadZones (imageOf t mask) = t.zones := by
  rw [loadZones, ← loadedTo_zero t.zones defaultZoneEntry]
  refine (foldl_finRange (loadedTo t.zones defaultZoneEntry) fun z => ?_).trans (loadedTo_all _ _)
  have hsub : zoneTableOk (loadedTo t.zones defaultZoneEntry (z.val + 1)) = true := by
    refine zoneTableOk_of_sub hok fun w => ?_
    rw [vget_loadedTo]
    split
    · exact .inl rfl
    · exact .inr rfl
  simp only [loadZone, imageEntry_zone, zoneEntryOf_bytes (hr z), vset_loadedTo, hsub, if_true]

theorem loadMap_imageOf {t : Tables} (mask : BitVec 23)
    (hr : ∀ i c, (vget t.map i).config = some c → mapInRange c = true)
    (hok : ∀ i, mapAllowed t.map i (vget t.map i).config = true) :
    loadMap (imageOf t mask) = Vector.ofFn fun i => neverEntry (vget t.map i).config := by
  generalize hv : (Vector.ofFn fun i => neverEntry (vget t.map i).config) = v
  have hget : ∀ i, vget v i = neverEntry (vget t.map i).config := fun i => by rw [← hv]; simp [vget]
  rw [loadMap, ← loadedTo_zero v (neverEntry none)]
  refine (foldl_finRange (loadedTo v (neverEntry none)) fun i => ?_).trans (loadedTo_all _ _)
  have hallowed : mapAllowed (loadedTo v (neverEntry none) i.val) i (vget t.map i).config = true := by
    have h := hok i
    unfold mapAllowed at h ⊢
    split
    next c hc =>
      rw [hc] at h
      rw [List.all_eq_true] at h ⊢
      intro j hj
      have hj := h j hj
      rw [vget_loadedTo]
      split
      · rw [hget]
        exact hj
      · simp [neverEntry, clashes]
    next => rfl
  simp only [loadMapEntry, imageEntry_map, mapConfigOf_bytes (hr i), hallowed, if_true, ← hget, vset_loadedTo]

/-- A load gives the tables that the image was taken from, the Sample Map without readings. -/
theorem loadTables_imageOf {t : Tables} (mask : BitVec 23) (h : tablesSound t) : loadTables (imageOf t mask) =
    { t with map := Vector.ofFn fun i => neverEntry (vget t.map i).config } := by
  obtain ⟨hz, hzok, hrec, hstep, hst, hline, hmap, hmapok⟩ := h
  have hrecipes : (Vector.ofFn fun i : Fin 16 =>
      (recipeOf (imageEntry (imageOf t mask) .recipe i.val)).getD defaultRecipe) = t.recipes := by
    apply vget_ext
    intro i
    obtain ⟨hin, hrev⟩ := hrec i
    rw [← Option.getD_some (a := vget t.recipes i) (b := defaultRecipe), ← recipeOf_bytes hin hrev, ← imageEntry_recipe t mask]
    simp [vget]
  have hsteps : (Vector.ofFn fun i : Fin 64 =>
      (stepEntryOf (imageEntry (imageOf t mask) .step i.val)).getD defaultStep) = t.steps := by
    apply vget_ext
    intro i
    rw [← Option.getD_some (a := vget t.steps i) (b := defaultStep), ← stepEntryOf_bytes (hstep i), ← imageEntry_step t mask]
    simp [vget]
  have ha := stationEntryOf_bytes (hst .a)
  have hb := stationEntryOf_bytes (hst .b)
  rw [← imageEntry_station t mask] at ha hb
  have hl := lineOf_bytes hline
  rw [← imageEntry_line t mask] at hl
  rw [loadTables, loadZones_imageOf mask hz hzok, hrecipes, hsteps, loadMap_imageOf mask hmap hmapok,
    show imageEntry (imageOf t mask) .station 0 = imageEntry (imageOf t mask) .station (stationNum .a) from rfl,
    show imageEntry (imageOf t mask) .station 1 = imageEntry (imageOf t mask) .station (stationNum .b) from rfl, ha, hb, hl]
  rfl

theorem imageOf_length (t : Tables) (mask : BitVec 23) : (imageOf t mask).length = 3314 := by
  have h : imageOf t mask = leBytes 2 Config.imageSignature ++ (tablesBytes t ++ leBytes 3 mask.toNat) ++
    leBytes 2 (frameCheck (tablesBytes t ++ leBytes 3 mask.toNat)).toNat := rfl
  rw [h, List.length_append, List.length_append, leBytes_length, leBytes_length, imageBody_length]

/-! ### STORE_IMAGE and IMAGE_STORE_END (R191) -/

/-- Settles O42. -/
theorem storeImage : Obligations.StoreImage := by
  intro q s s1
  refine ⟨fun ha => ⟨fun hi => ?_, fun hi => ?_⟩, fun hi => ⟨?_, ?_⟩, fun done hi => ?_, fun t mask h => ?_⟩
  · have hown : ownStoreImage s1 = refuse .busy s1 := if_pos hi
    exact (finish_serve_admitted ha rfl).trans (by rw [hown]; rfl)
  · have hown : ownStoreImage s1 = accept (beginStore s1) := if_neg (by rw [hi]; decide)
    exact (finish_serve_admitted ha rfl).trans (by rw [hown]; rfl)
  · refine finish_eq ?_
    rw [imageStored, if_pos hi, if_pos rfl, setLevel_off]
    rfl
  · refine finish_eq ?_
    rw [imageStored, if_pos hi]
    rfl
  · refine finish_eq ?_
    rw [imageStored, if_neg hi]
  · exact ⟨imageOf_length t mask, imageValid_imageOf t mask, loadMask_imageOf t mask, loadTables_imageOf mask h⟩

/-! ### IMAGE_LOAD_COMPLETE (R87, R110, R190) -/

/-- A zone's context after it took up its entry (R87). -/
def takenUp (e : ZoneEntry) : Zone :=
  if e.enabled = true then { resetZone .off e with timer := startTimer (periodOf e) } else resetZone .disabled e

theorem zoneOf_zoneTakesUp (a z : Fin 32) (s : Block) :
    zoneOf (zoneTakesUp a s) z = if a = z then takenUp (entryOf s a) else zoneOf s z := by
  unfold zoneTakesUp takenUp
  split
  · exact vget_vset _ _ _ _
  · exact vget_vset _ _ _ _

theorem zoneTakesUp_pressure (a : Fin 32) (s : Block) : (zoneTakesUp a s).pwa.pressure = s.pwa.pressure := by
  unfold zoneTakesUp
  split <;> rfl

/-- A station's record after a change of some station's in-band record. -/
theorem stcOf_modStc_inBand (x st : Station) (f : Vector Bool 32 → Vector Bool 32) (s : Block) :
    let b := modStc x (fun c => { c with inBand := f c.inBand }) s
    stcOf b st = { stcOf s st with inBand := (stcOf b st).inBand } := by cases x <;> cases st <;> rfl

theorem stcOf_zoneTakesUp (a : Fin 32) (s : Block) (st : Station) :
    stcOf (zoneTakesUp a s) st = { stcOf s st with inBand := (stcOf (zoneTakesUp a s) st).inBand } := by
  unfold zoneTakesUp
  split
  · exact stcOf_modStc_inBand _ _ (fun v => vset v a false) _
  · exact stcOf_modStc_inBand _ _ (fun v => vset v a false) _

theorem zoneTakesUp_tab (a : Fin 32) (s : Block) : (zoneTakesUp a s).tab = s.tab := by
  unfold zoneTakesUp
  split <;> rfl

/-- Every zone of a list has taken up its entry; of the stations only the in-band record has changed. -/
theorem zoneTakesUp_foldl_zones (l : List (Fin 32)) (s : Block) :
    let b := l.foldl (fun s z => zoneTakesUp z s) s
    (∀ z, zoneOf b z = if z ∈ l then takenUp (entryOf s z) else zoneOf s z) ∧ b.pwa.pressure = s.pwa.pressure ∧
      ∀ st, stcOf b st = { stcOf s st with inBand := (stcOf b st).inBand } := by
  induction l generalizing s with
  | nil => exact ⟨fun z => by simp, rfl, fun st => rfl⟩
  | cons a l ih =>
    obtain ⟨hz, hp, hst⟩ := ih (zoneTakesUp a s)
    rw [List.foldl_cons]
    refine ⟨fun z => ?_, hp.trans (zoneTakesUp_pressure a s), fun st => ?_⟩
    · rw [hz, zoneOf_zoneTakesUp]
      have he : entryOf (zoneTakesUp a s) z = entryOf s z := by rw [entryOf, zoneTakesUp_tab, entryOf]
      by_cases hl : z ∈ l
      · rw [if_pos hl, if_pos (List.mem_cons_of_mem _ hl), he]
      · by_cases e : a = z
        · subst e
          rw [if_neg hl, if_pos rfl, if_pos List.mem_cons_self]
        · rw [if_neg hl, if_neg e, if_neg (by simp [hl, Ne.symm e])]
    · have h1 := hst st
      have h2 := stcOf_zoneTakesUp a s st
      generalize stcOf (l.foldl (fun s z => zoneTakesUp z s) (zoneTakesUp a s)) st = x at h1 ⊢
      generalize stcOf (zoneTakesUp a s) st = y at h1 h2
      rw [h1, h2]

/-- With every zone without demand, and no pressure, a budget event grants nothing and posts nothing. -/
theorem budgetEvent_idle {s : Block} (hz : ∀ z, demandOf s z = 0 ∧ (zoneOf s z).g = 0) (hp : s.pwa.pressure = false) :
    budgetEvent s = setLevel .budgetPressure false (allocate s) ∧ ∀ z, vget (allocate s).pwa.allowance z = 0 := by
  have hallowance : ∀ f z, allowanceFor s f z = 0 := fun f z => by
    unfold allowanceFor
    split
    · rw [(hz z).1, Nat.zero_mul, Nat.zero_div]
    · rfl
  have hload : ∀ c, loadOf s c = 0 := fun c => by
    rw [loadOf]
    simp only [(hz _).1, Nat.zero_mul, List.map_const', List.sum_replicate, smul_zero]
  have hzone : ∀ z, zoneOf (allocate s) z = zoneOf s z := fun z => by rw [allocate_spec]; simp only [zoneOf]
  have hclip : ∀ l : List (Fin 32), l.foldl (fun s z => clipZone z s) (allocate s) = allocate s := by
    intro l
    induction l with
    | nil => rfl
    | cons z l ih =>
      have hg : ¬ allowanceOf (allocate s) z < (zoneOf (allocate s) z).g := by
        rw [hzone, (hz z).2]
        exact Nat.not_lt_zero _
      rw [List.foldl_cons, clipZone, if_neg hg, ih]
  have hoff : (allocate s).pwa.pressure = false := by simp only [allocate, hp]
  have hpressure : pressureAfter (allocate s) = false := by
    have hsum : loadSum (allocate s) = 0 := by simp only [loadSum, allocate, loadsOf, hload]
    rw [pressureAfter, hoff, hsum]
    simp only [Bool.false_eq_true, if_false, Nat.not_lt_zero, decide_false]
  refine ⟨?_, fun z => ?_⟩
  · have hsame : ({ allocate s with pwa := { (allocate s).pwa with pressure := false } } : Block) = allocate s := by
      rw [← hoff]
    rw [budgetEvent, clipGrants, hclip, judgePressure, hpressure, hoff]
    simp only [hsame, Bool.false_and, Bool.false_eq_true, if_false]
  · simp only [allocate]
    simp [vget, hallowance]

/-- Tables, masks and the condition of a load (R190). -/
theorem takeImage_eq (found : Option (List Byte)) (s : Block) :
    let b := takeImage found s
    b.tab = (match found with
      | some bs => loadTables bs
      | none => defaultTables) ∧
    b.cdu.mask = (match found with
      | some bs => loadMask bs
      | none => BitVec.allOnes 23) ∧
    b.cdu.present.getLsbD 21 = found.isNone ∧ b = { s with tab := b.tab, cdu := b.cdu } := by
  refine ⟨setLevel_tab _ _ _, setLevel_mask _ _ _, ?_, ?_⟩
  · have h := (conditionLevels .imageInvalid found.isNone
      { s with
        tab := match found with
          | some bs => loadTables bs
          | none => defaultTables
        cdu := { s.cdu with mask := match found with
          | some bs => loadMask bs
          | none => BitVec.allOnes 23 } }).1 21 (by decide)
    exact h.trans (if_pos rfl)
  · unfold takeImage
    rw [setLevel_spec]

/-- The state that a load leaves before its own event's posts (R87, R110, R190). -/
def loadedState (found : Option (List Byte)) (s : Block) : Block :=
  let s1 := takeImage found s
  allZones.foldl (fun s z => zoneTakesUp z s)
    { s1 with mga := { s1.mga with image := .ready }, rpu := { s1.rpu with ownAddress := s1.tab.line.own } }

/-- The zones, stations and blocks of that state. -/
theorem loadedState_spec (found : Option (List Byte)) (s : Block) :
    let b := loadedState found s
    let x := takeImage found s
    (∀ z, zoneOf b z = takenUp (vget x.tab.zones z)) ∧ b.pwa.pressure = s.pwa.pressure ∧
      (∀ st, stcOf b st = { stcOf s st with inBand := (stcOf b st).inBand }) ∧
      b = { s with tab := x.tab, cdu := x.cdu, mga := { s.mga with image := .ready }
                   rpu := { s.rpu with ownAddress := x.tab.line.own }, stc := b.stc, zrg := b.zrg, pwa := b.pwa } := by
  obtain ⟨-, -, -, hx⟩ := takeImage_eq found s
  generalize hxe : takeImage found s = x at hx
  have hb : loadedState found s = allZones.foldl (fun s z => zoneTakesUp z s)
      { x with mga := { x.mga with image := .ready }, rpu := { x.rpu with ownAddress := x.tab.line.own } } := by
    rw [← hxe]
    rfl
  obtain ⟨hz, hp, hst⟩ := zoneTakesUp_foldl_zones allZones
    { x with mga := { x.mga with image := .ready }, rpu := { x.rpu with ownAddress := x.tab.line.own } }
  obtain ⟨hall, -, -⟩ := zoneTakesUp_foldl allZones
    { x with mga := { x.mga with image := .ready }, rpu := { x.rpu with ownAddress := x.tab.line.own } }
  rw [← hb] at hz hp hst hall
  refine ⟨fun z => (hz z).trans (if_pos (List.mem_finRange z)), hp.trans (by rw [hx]), fun st => ?_, ?_⟩
  · have h := hst st
    have hs : stcOf x st = stcOf s st := by rw [hx, stcOf, stcOf]
    exact h.trans (by rw [← hs]; rfl)
  · refine hall.trans ?_
    rw [hx]

theorem takenUp_fields (e : ZoneEntry) : (takenUp e).state = (if e.enabled = true then .off else .disabled) ∧
    (takenUp e).timer = (if e.enabled = true then startTimer (periodOf e) else none) ∧ (takenUp e).r = 0 ∧
    (takenUp e).g = 0 ∧ (takenUp e).inBand = false := by
  unfold takenUp
  split <;> exact ⟨rfl, rfl, rfl, rfl, rfl⟩

/-- A completed load, with no pressure (R190). -/
theorem imageLoaded_eq {answers : Bool} {s b : Block} (hi : s.mga.image = .loading) (hp : s.pwa.pressure = false)
    (hload : loadedState (foundImage s.mga.memory answers) s = b) : imageLoaded answers s =
      startRefresh .b (startRefresh .a (startBudget (setLevel .budgetPressure false (allocate b)))) ∧
    ∀ z, vget (allocate b).pwa.allowance z = 0 := by
  obtain ⟨hz, hpb, -, -⟩ := loadedState_spec (foundImage s.mga.memory answers) s
  rw [hload] at hz hpb
  have hidle : ∀ z, demandOf b z = 0 ∧ (zoneOf b z).g = 0 := fun z => by
    obtain ⟨hstate, -, -, hg, -⟩ := takenUp_fields (vget (takeImage (foundImage s.mga.memory answers) s).tab.zones z)
    rw [← hz] at hstate hg
    refine ⟨?_, hg⟩
    unfold demandOf
    rw [hstate]
    split
    next h => split at h <;> cases h
    next h => split at h <;> cases h
    next => rfl
  obtain ⟨hb, ha⟩ := budgetEvent_idle hidle (hpb.trans hp)
  refine ⟨?_, ha⟩
  rw [← hb, imageLoaded, if_pos hi]
  simp only [← hload, loadedState]

/-- The timers that start at the end of a load, and the budget's first figures (R84, R110). -/
theorem started_spec {b r : Block}
    (h : r = startRefresh .b (startRefresh .a (startBudget (setLevel .budgetPressure false (allocate b))))) :
    r = { b with
      pwa := { (allocate b).pwa with timer := startTimer b.tab.line.period }
      cdu := (setLevel .budgetPressure false (allocate b)).cdu, stc := r.stc } ∧
    ∀ st, stcOf r st = { stcOf b st with refresh := startTimer (b.tab.stations.get st).refresh } := by
  have hall := allocate_spec b
  generalize allocate b = a at h hall
  generalize a.pwa = p at hall
  subst hall
  rw [setLevel_spec] at h ⊢
  subst h
  refine ⟨rfl, fun st => ?_⟩
  cases st <;> rfl

/-- Settles O44. -/
theorem imageLoad : Obligations.ImageLoad := by
  intro answers s
  refine ⟨fun hi => ?_, fun hi hp => ?_⟩
  · refine finish_eq ?_
    have hid : imageLoaded answers s.toBlock = s.toBlock := if_neg hi
    rw [event_of_stc _ _ (by rw [hid]), hid]
  · obtain ⟨heq, hallowance⟩ := imageLoaded_eq (answers := answers) hi hp rfl
    obtain ⟨hz, -, hst, hb⟩ := loadedState_spec (foundImage s.mga.memory answers) s.toBlock
    obtain ⟨htab, hmask, hpresent, -⟩ := takeImage_eq (foundImage s.mga.memory answers) s.toBlock
    generalize hx : takeImage (foundImage s.mga.memory answers) s.toBlock = x at hz hb htab hmask hpresent
    generalize loadedState (foundImage s.mga.memory answers) s.toBlock = b at heq hallowance hz hst hb
    generalize hr : imageLoaded answers s.toBlock = r at heq
    obtain ⟨hrb, hrefresh⟩ := started_spec heq
    have hstc : ∀ st, stcOf r st = { stcOf s.toBlock st with
        inBand := (stcOf r st).inBand, refresh := startTimer (x.tab.stations.get st).refresh } := fun st => by
      have h1 := hrefresh st
      have h2 := hst st
      generalize stcOf b st = c at h1 h2
      rw [h2] at h1
      have htab' : b.tab = x.tab := by rw [hb]
      rw [h1, htab']
    have hevent : event (imageLoaded answers) s.toBlock = r := by
      refine (event_eq _ _ (fun st => ?_) fun st => ?_).trans hr
      · rw [hr]
        apply permitOf_congr <;> rw [hstc st]
      · rw [hr, stateOf, hstc st, stateOf]
    refine ⟨s.closing r, finish_eq hevent, rfl, ?_⟩
    have hrtab : r.tab = x.tab := by rw [hrb, hb]
    have hcdu : r.cdu = (setLevel .budgetPressure false (allocate b)).cdu := by rw [hrb]
    have hbcdu : (allocate b).cdu = x.cdu := by rw [allocate_spec, hb]
    have hrmask : r.cdu.mask = x.cdu.mask := by rw [hcdu, setLevel_mask, hbcdu]
    have hrpresent : r.cdu.present.getLsbD 21 = x.cdu.present.getLsbD 21 := by
      rw [hcdu, (conditionLevels .budgetPressure false (allocate b)).1 21 (by decide), if_neg (by decide), hbcdu]
    rw [← hrtab] at htab
    rw [← hrmask] at hmask
    rw [← hrpresent] at hpresent
    simp only [State.closing, arbitrate_tab, arbitrate_cdu, arbitrate_mga, arbitrate_ownAddress, arbitrate_pwa,
      arbitrate_hst, arbitrate_dms, arbitrate_scu, zoneOf, stcOf, arbitrate_zrg, arbitrate_stc]
    refine ⟨fun bs ha hm hv => ?_, fun hinvalid => ?_, ?_, ?_, fun z => ?_, ?_, fun st => ⟨?_, ?_⟩, ?_, ?_, ?_⟩
    · have hfound : foundImage s.mga.memory answers = some bs := by simp [foundImage, hm, ha, hv]
      rw [hfound] at htab hmask hpresent
      exact ⟨htab, hmask, hpresent⟩
    · have hfound : foundImage s.mga.memory answers = none := by
        rcases hinvalid with ha | hm | ⟨bs, hm, hv⟩
        · rw [ha]
          cases s.mga.memory <;> rfl
        · rw [hm]
          rfl
        · rw [hm]
          cases answers
          · rfl
          · simp [foundImage, hv]
      rw [hfound] at htab hmask hpresent
      exact ⟨htab, hmask, hpresent⟩
    · rw [hrb, hb]
    · rw [hrtab, hrb, hb]
    · obtain ⟨h1, h2, h3, h4, h5⟩ := takenUp_fields (vget r.tab.zones z)
      have hzone : vget r.zrg.zones z = takenUp (vget r.tab.zones z) := by
        have hzrg : r.zrg = b.zrg := by rw [hrb]
        rw [hzrg, hrtab]
        exact hz z
      rw [← hzone] at h1 h2 h3 h4 h5
      refine ⟨h1, h2, h3, h4, h5, ?_⟩
      have hpwa : r.pwa.allowance = (allocate b).pwa.allowance := by rw [hrb]
      rw [hpwa]
      exact hallowance z
    · have htimer : r.pwa.timer = startTimer b.tab.line.period := by rw [hrb]
      rw [htimer, hrtab, hb]
      rfl
    · have h := congrArg Stc.refresh (hstc st)
      rw [hrtab]
      exact h
    · have h := congrArg Stc.state (hstc st)
      exact h
    · rw [hrb, hb]
    · rw [hrb, hb]
    · rw [hrb, hb]

end Sys2Proof.Machine
end

section
/-! PROOFS. What the events of stations, zones, scale and sequencers leave alone: the tables and SENSOR_STALE (R32, R39, R40). -/

namespace Sys2Proof.Machine

open Sys2Proof

/-! ### The tables and SENSOR_STALE -/

/-- The tables, and SENSOR_STALE with its latch. -/
def staleView (s : Block) : Tables × Bool × Bool := (s.tab, s.cdu.present.getLsbD 19, s.cdu.latched.getLsbD 19)

theorem staleView_congr {s t : Block} (ht : t.tab = s.tab) (hc : t.cdu = s.cdu) : staleView t = staleView s := by
  rw [staleView, staleView, ht, hc]

theorem condNum_ne_nineteen {c : Cond} (h : c ≠ .sensorStale) : 19 ≠ condNum c := by
  cases c
  case sensorStale => exact absurd rfl h
  case heatFault st | chargeAgedSeen st | noCycle st | stationHeld st | cycleClosed st => cases st <;> decide
  all_goals decide

section Primitives

variable (s : Block) (st : Station)

@[simp] theorem staleView_setLevel {c : Cond} (on : Bool) (h : c ≠ .sensorStale) :
    staleView (setLevel c on s) = staleView s := by
  obtain ⟨hp, hl, -⟩ := conditionLevels c on s
  have hne := condNum_ne_nineteen h
  rw [staleView, staleView, setLevel_tab, hp 19 (by decide), hl 19 (by decide), if_neg hne, decide_eq_false hne]
  simp only [Bool.false_and, Bool.or_false]

@[simp] theorem staleView_latchCond {c : Cond} (h : c ≠ .sensorStale) : staleView (latchCond c s) = staleView s := by
  have hl : (latchCond c s).cdu.latched.getLsbD 19 = s.cdu.latched.getLsbD 19 :=
    (setBit_getLsbD _ _ _ _ (by decide)).trans (if_neg (condNum_ne_nineteen h))
  rw [staleView, staleView, hl]
  rfl

@[simp] theorem staleView_modStc (f : Stc → Stc) : staleView (modStc st f s) = staleView s := rfl

@[simp] theorem staleView_modCycle (f : Cycle → Cycle) : staleView (modCycle st f s) = staleView s := rfl

@[simp] theorem staleView_setState (x : StationState) : staleView (setState st x s) = staleView s := rfl

@[simp] theorem staleView_modDms (f : Dms → Dms) : staleView (modDms st f s) = staleView s := rfl

@[simp] theorem staleView_modZone (z : Fin 32) (f : Zone → Zone) : staleView (modZone z f s) = staleView s := rfl

@[simp] theorem staleView_modScu (f : Scu → Scu) : staleView (modScu f s) = staleView s := rfl

@[simp] theorem staleView_modSession (f : Session → Session) : staleView (modSession f s) = staleView s := rfl

@[simp] theorem staleView_modHst (f : Hst → Hst) : staleView (modHst f s) = staleView s := rfl

@[simp] theorem staleView_modRecord (n : Nat) (f : Record → Record) : staleView (modRecord n f s) = staleView s :=
  staleView_modHst s _

@[simp] theorem staleView_modOpenRecord (f : Record → Record) : staleView (modOpenRecord st f s) = staleView s := by
  unfold modOpenRecord
  split
  · simp
  · rfl

@[simp] theorem staleView_setFlag (f : RecFlag) : staleView (setFlag st f s) = staleView s := by simp [setFlag]

@[simp] theorem staleView_postControl (rule : List ControlFrame → List ControlFrame) :
    staleView (postControl rule s) = staleView s := by
  unfold postControl
  split <;> rfl

@[simp] theorem staleView_postPermit : staleView (postPermit st s) = staleView s := by simp [postPermit]

@[simp] theorem staleView_postStroke (o : StrokeOrder) : staleView (postStroke st o s) = staleView s := by
  simp [postStroke]

@[simp] theorem staleView_postWeigh (n : WeighNotice) : staleView (postWeigh n s) = staleView s := by simp [postWeigh]

@[simp] theorem staleView_setNoCycle (c : NoCycle) : staleView (setNoCycle st c s) = staleView s := by
  simp [setNoCycle]

end Primitives

/-! ### The scale -/

section Scale

variable (s : Block) (st : Station) (u : Session)

@[simp] theorem staleView_notify (n : Notice) (a : Nat) (c : WeighCause) (w : Int) :
    staleView (notify u n a c w s) = staleView s := by simp [notify]

theorem staleView_scaleOnly {s t : Block} (h : ScaleOnly s t) : staleView t = staleView s := by
  rw [h]
  rfl

@[simp] theorem staleView_evalLoading : staleView (evalLoading s) = staleView s := staleView_scaleOnly (scaleOnly_evalLoading s)

@[simp] theorem staleView_enterLoading : staleView (enterLoading s) = staleView s :=
  staleView_scaleOnly (scaleOnly_enterLoading s)

@[simp] theorem staleView_evalClearing : staleView (evalClearing s) = staleView s :=
  staleView_scaleOnly (scaleOnly_evalClearing s)

@[simp] theorem staleView_grantOldest : staleView (grantOldest s) = staleView s := staleView_scaleOnly (scaleOnly_grantOldest s)

@[simp] theorem staleView_leaveScale : staleView (leaveScale st s) = staleView s :=
  staleView_scaleOnly (scaleOnly_leaveScale st s)

@[simp] theorem staleView_postDiscard : staleView (postDiscard st s) = staleView s :=
  staleView_scaleOnly (scaleOnly_postDiscard st s)

@[simp] theorem staleView_postClaim : staleView (postClaim st s) = staleView s := by simp [postClaim]

@[simp] theorem staleView_endSession : staleView (endSession s) = staleView s := rfl

@[simp] theorem staleView_dropAccepted : staleView (dropAccepted st s) = staleView s := rfl

@[simp] theorem staleView_judgeOverload : staleView (judgeOverload s) = staleView s := by simp [judgeOverload]

@[simp] theorem staleView_takeReading (raw : Int) : staleView (takeReading raw s) = staleView s := by simp [takeReading]

@[simp] theorem staleView_evalIfLoading : staleView (evalIfLoading s) = staleView s := by
  unfold evalIfLoading
  split
  · split <;> simp
  · rfl

@[simp] theorem staleView_clearWindow : staleView (clearWindow s) = staleView s := by simp [clearWindow]

@[simp] theorem staleView_rejectAttempt (c : WeighCause) (w : Int) :
    staleView (rejectAttempt u c w s).1 = staleView s := by
  unfold rejectAttempt
  dsimp only
  split <;> simp

@[simp] theorem staleView_acceptAttempt (w : Int) : staleView (acceptAttempt u w s) = staleView s := by
  simp [acceptAttempt]

@[simp] theorem staleView_captureAttempt : staleView (captureAttempt u s).1 = staleView s := by
  unfold captureAttempt
  dsimp only
  split
  · simp
  · split <;> simp

end Scale

/-! ### The stations -/

section Stations

variable (s : Block) (st : Station)

@[simp] theorem staleView_startSettle : staleView (startSettle st s) = staleView s := by
  unfold startSettle
  dsimp only
  split
  · split <;> simp
  · rfl

@[simp] theorem staleView_clearHeat : staleView (clearHeat st s) = staleView s := by
  unfold clearHeat readyToPreheat
  split <;> simp

@[simp] theorem staleView_judgeAllowance : staleView (judgeAllowance st s) = staleView s := by
  unfold judgeAllowance
  split
  · split <;> simp
  · rfl

@[simp] theorem staleView_judgeGate : staleView (judgeGate st s) = staleView s := by
  unfold judgeGate
  split <;> simp

@[simp] theorem staleView_zoneReport (z : Fin 32) (band : Bool) : staleView (zoneReport st z band s) = staleView s := by
  unfold zoneReport
  dsimp only
  split <;> simp

@[simp] theorem staleView_setBand (z : Fin 32) (band : Bool) : staleView (setBand z band s) = staleView s := by
  unfold setBand
  split <;> simp

@[simp] theorem staleView_moveTargets : staleView (moveTargets st s) = staleView s := by
  unfold moveTargets eachZone
  induction zonesOf s st generalizing s with
  | nil => rfl
  | cons z l ih =>
    rw [List.foldl_cons, ih]
    dsimp only
    split <;> simp

theorem staleView_judgeHigh : staleView (judgeHigh s) = staleView s := by simp [judgeHigh]

@[simp] theorem staleView_openRecord (idx : Fin 16) (rev : Nat) (i : Fin 48) (n : Nat) :
    staleView (openRecord st idx rev i n s) = staleView s := by simp [openRecord, judgeFull]

@[simp] theorem staleView_closeRecord (n : Nat) : staleView (closeRecord n s) = staleView s := by
  simp [closeRecord, staleView_judgeHigh]

@[simp] theorem staleView_openCycle (idx : Fin 16) (r : Recipe) (steps : List StepCopy) (i : Fin 48) (n : Nat) :
    staleView (openCycle st idx r steps i n s) = staleView s := by simp [openCycle]

@[simp] theorem staleView_cycleOpenTest : staleView (cycleOpenTest st s) = staleView s := by
  unfold cycleOpenTest
  dsimp only
  split
  · split
    · simp
    · simp
    · simp
    · split <;> simp
  · rfl

@[simp] theorem staleView_stopWait : staleView (stopWait st s) = staleView s := by
  unfold stopWait
  split
  · split
    · dsimp only
      split <;> simp
    · rfl
  · rfl

@[simp] theorem staleView_writeWait : staleView (writeWait st s) = staleView s := by
  unfold writeWait
  split
  · split <;> simp
  · rfl

@[simp] theorem staleView_closeCycle : staleView (closeCycle st s) = staleView s := by
  unfold closeCycle
  split
  · dsimp only
    split <;> simp
  · rfl

@[simp] theorem staleView_endFromCharging : staleView (endFromCharging st s) = staleView s := by simp [endFromCharging]

@[simp] theorem staleView_finalReject : staleView (finalReject st s) = staleView s := by
  unfold finalReject
  split <;> simp

@[simp] theorem staleView_enterCuring : staleView (enterCuring st s) = staleView s := by
  have markers : ∀ b, staleView (clearMarkers st b) = staleView b := fun _ => rfl
  unfold enterCuring
  dsimp only
  split <;> simp [markers]

@[simp] theorem staleView_cureTest : staleView (cureTest st s) = staleView s := by
  unfold cureTest
  split
  · split <;> simp
  · rfl

@[simp] theorem staleView_acceptCharge : staleView (acceptCharge st s) = staleView s := by
  unfold acceptCharge
  split <;> simp

@[simp] theorem staleView_closedRising : staleView (closedRising st s) = staleView s := by
  have flagged : ∀ c : Bool, staleView (if c = true then s else setFlag st .unpermittedClose s) = staleView s := by
    intro c
    split <;> simp
  unfold closedRising
  dsimp only
  split
  · split <;> simp [flagged]
  · rfl

@[simp] theorem staleView_exitCuring : staleView (exitCuring st s) = staleView s := by
  unfold exitCuring
  split <;> simp

@[simp] theorem staleView_deliverOutcome (x : Block × Outcome) : staleView (deliverOutcome x) = staleView x.1 := by
  unfold deliverOutcome
  split <;> simp

@[simp] theorem staleView_capture : staleView (capture s) = staleView s := by
  unfold capture
  split <;> simp

@[simp] theorem staleView_evalSettling : staleView (evalSettling s) = staleView s := by
  unfold evalSettling
  split <;> simp

@[simp] theorem staleView_evalSession : staleView (evalSession s) = staleView s := by
  unfold evalSession
  split
  · rfl
  · split
    · simp
    · simp
    · simp
    · split <;> simp
    · split <;> simp

@[simp] theorem staleView_scaleReading (raw : Int) : staleView (scaleReading raw s) = staleView s := by
  simp [scaleReading]

@[simp] theorem staleView_scaleDone : staleView (scaleDone s) = staleView s := by
  unfold scaleDone
  split
  · split <;> simp
  · rfl

end Stations

/-! ### The sequencers -/

section Sequencers

variable (s : Block) (st : Station)

@[simp] theorem staleView_modDemould (f : DemouldPart → DemouldPart) : staleView (modDemould st f s) = staleView s := by
  simp [modDemould]

@[simp] theorem staleView_countStall : staleView (countStall st s) = staleView s := by simp [countStall]

@[simp] theorem staleView_postStop : staleView (postStop st s) = staleView s := by simp [postStop]

@[simp] theorem staleView_postMotion (o : StrokeOrder) (t : Nat) : staleView (postMotion st o t s) = staleView s := by
  simp [postMotion]

@[simp] theorem staleView_halt (c : HaltCause) (stuck : BitVec 8) (a : Resume) :
    staleView (halt st c stuck a s) = staleView s := by
  unfold halt
  dsimp only
  split <;> simp

@[simp] theorem staleView_issueStep : staleView (issueStep st s) = staleView s := by
  have taken : ∀ b, staleView (takeRetract st b) = staleView b := fun _ => rfl
  unfold issueStep
  split
  · rfl
  · split <;> simp [taken]

@[simp] theorem staleView_enterHoming : staleView (enterHoming st s) = staleView s := by
  unfold enterHoming
  split
  · rfl
  · split <;> simp

@[simp] theorem staleView_beginProbe (g : Nat) : staleView (beginProbe st g s) = staleView s := by
  unfold beginProbe
  split
  · rfl
  · dsimp only
    split <;> simp

@[simp] theorem staleView_beginScan : staleView (beginScan st s) = staleView s := by
  unfold beginScan
  split <;> simp

@[simp] theorem staleView_retract : staleView (retract st s) = staleView s := by
  unfold retract
  split
  · rfl
  · split <;> simp

@[simp] theorem staleView_takeAction (a : Resume) : staleView (takeAction st a s) = staleView s := by
  unfold takeAction
  split
  · rfl
  · simp
  · simp
  · split <;> simp

@[simp] theorem staleView_pause (a : Resume) : staleView (pause st a s) = staleView s := rfl

@[simp] theorem staleView_advance : staleView (advance st s).1 = staleView s := by
  unfold advance
  dsimp only
  split <;> rfl

@[simp] theorem staleView_stepBoundary : staleView (stepBoundary st s) = staleView s := by
  unfold stepBoundary
  dsimp only
  split
  · simp
  · split <;> simp

@[simp] theorem staleView_dwellDone : staleView (dwellDone st s) = staleView s := by simp [dwellDone]

theorem staleView_startDwell {done : Block → Block} (h : ∀ b, staleView (done b) = staleView b) :
    staleView (startDwell st done s) = staleView s := by
  unfold startDwell
  split
  · rfl
  · split
    · exact h s
    · simp

@[simp] theorem staleView_restDone : staleView (restDone st s) = staleView s := by
  unfold restDone endScan
  dsimp only
  split
  · split <;> simp
  · split <;> simp

@[simp] theorem staleView_probeReturn : staleView (probeReturn st s) = staleView s := by
  unfold probeReturn
  split
  · dsimp only
    split <;> simp
  · rfl

@[simp] theorem staleView_probeStuckNow : staleView (probeStuckNow st s) = staleView s := by
  unfold probeStuckNow
  split <;> simp

@[simp] theorem staleView_startChain : staleView (startChain st s) = staleView s := by
  unfold startChain
  split <;> simp

@[simp] theorem staleView_chainDone : staleView (chainDone st s) = staleView s := by simp [chainDone]

@[simp] theorem staleView_retractArrival : staleView (retractArrival st s) = staleView s := by
  unfold retractArrival
  split <;> simp

@[simp] theorem staleView_arrival : staleView (arrival st s) = staleView s := by
  have dwell := fun b => staleView_startDwell (done := dwellDone st) b st fun c => staleView_dwellDone c st
  have rest := fun b => staleView_startDwell (done := restDone st) b st fun c => staleView_restDone c st
  unfold arrival
  dsimp only
  split
  · simp [dwell]
  · simp
  · split
    · simp
    · simp [rest]
    · rfl
  · simp
  · rfl

@[simp] theorem staleView_posReading (v : Int) : staleView (posReading st v s) = staleView s := by
  unfold posReading
  split <;> simp

@[simp] theorem staleView_stall : staleView (stall st s) = staleView s := by
  unfold stall
  dsimp only
  split
  · simp
  · split <;> simp

@[simp] theorem staleView_forceExceeded : staleView (forceExceeded st s) = staleView s := by
  unfold forceExceeded
  dsimp only
  split
  · simp
  · simp [stallHalt]
  · split <;> simp [stallHalt]
  · simp [stallHalt]
  · rfl

@[simp] theorem staleView_forceReading (v : Int) : staleView (forceReading st v s) = staleView s := by
  unfold forceReading raiseForce
  dsimp only
  split
  · split <;> simp
  · simp

@[simp] theorem staleView_ejectorStale : staleView (ejectorStale st s) = staleView s := by
  unfold ejectorStale
  dsimp only
  split
  · split <;> simp
  · rfl

@[simp] theorem staleView_holdEvent : staleView (holdEvent st s) = staleView s := by
  unfold holdEvent
  dsimp only
  split <;> simp

end Sequencers

/-! ### Deliveries and the close of an event -/

section Deliveries

variable (s : Block) (st : Station)

@[simp] theorem staleView_countFault (z : Fin 32) (sl : Slot) : staleView (countFault z sl s) = staleView s := rfl

@[simp] theorem staleView_openedRising : staleView (openedRising st s) = staleView s := by
  unfold openedRising
  split <;> simp

@[simp] theorem staleView_closedReading (edge : Edge) : staleView (closedReading st edge s) = staleView s := by
  unfold closedReading
  split <;> simp

@[simp] theorem staleView_tonnageReading (v : Int) : staleView (tonnageReading st v s) = staleView s := by
  unfold tonnageReading raisePeak
  split <;> simp

theorem staleView_deliverReading (t : Target) (v : Int) (edge : Edge) :
    staleView (deliverReading t v edge s) = staleView s := by
  unfold deliverReading
  split
  · rfl
  · simp
  · split <;> simp
  · split
    · simp
    · split <;> simp
    · simp
    · simp
    · simp
    · simp

theorem staleView_deliverFault (t : Target) : staleView (deliverFault t s) = staleView s := by
  unfold deliverFault
  split
  · simp
  · split <;> simp
  · rfl

theorem staleView_deliverStale (t : Target) : staleView (deliverStale t s) = staleView s := by
  unfold deliverStale
  split
  · simp
  · simp
  · rfl
  · split <;> simp

theorem staleView_postPermits (b : Block) : staleView (postPermits b s) = staleView s := by
  have one : ∀ st c, staleView (postIfChanged b st c) = staleView c := fun st c => by
    unfold postIfChanged
    split <;> simp
  rw [postPermits, one, one]

theorem staleView_event (f : Block → Block) : staleView (event f s) = staleView (f s) := by
  have one : ∀ b st c, staleView (moveIfChanged b st c) = staleView c := fun b st c => by
    unfold moveIfChanged
    split <;> simp
  simp only [event, moveAll, staleView_postPermits, one]

end Deliveries

end Sys2Proof.Machine
end

section
/-! PROOFS. The Sample Classifier: one entry of a SAMPLE frame judged (R32 to R38, R42), an entry gone stale (R39, R40), and
what closes each of their events (R84, R106). -/

namespace Sys2Proof.Machine

open Sys2Proof

/-! ### The close of an event in which no target moves (R84, R106) -/

theorem event_congr {f g : Block → Block} {s : Block} (h : f s = g s) : event f s = event g s := by
  unfold event
  rw [h]

section Close

variable (before s : Block) (st : Station)

theorem postPermit_tab : (postPermit st s).tab = s.tab := by rw [postPermit_spec]

theorem postPermit_zrg : (postPermit st s).zrg = s.zrg := by rw [postPermit_spec]

theorem stcOf_postPermit (st' : Station) : ∃ r, stcOf (postPermit st s) st' = { stcOf s st' with refresh := r } := by
  rw [postPermit_spec]
  cases st <;> cases st' <;> exact ⟨_, rfl⟩

/-- The posts of an event leave the tables and the zones alone, and restart refresh timers. -/
theorem postPermits_spec : (postPermits before s).tab = s.tab ∧ (postPermits before s).zrg = s.zrg ∧
    ∀ st, ∃ r, stcOf (postPermits before s) st = { stcOf s st with refresh := r } := by
  have one : ∀ x b, (postIfChanged before x b).tab = b.tab ∧ (postIfChanged before x b).zrg = b.zrg ∧
      ∀ st, ∃ r, stcOf (postIfChanged before x b) st = { stcOf b st with refresh := r } := fun x b => by
    unfold postIfChanged
    split
    · exact ⟨rfl, rfl, fun st => ⟨(stcOf b st).refresh, rfl⟩⟩
    · exact ⟨postPermit_tab b x, postPermit_zrg b x, stcOf_postPermit b x⟩
  obtain ⟨ta, za, ca⟩ := one .a s
  obtain ⟨tb, zb, cb⟩ := one .b (postIfChanged before .a s)
  refine ⟨tb.trans ta, zb.trans za, fun st => ?_⟩
  obtain ⟨r, hr⟩ := ca st
  obtain ⟨r', hr'⟩ := cb st
  exact ⟨r', hr'.trans (by rw [hr])⟩

variable {before s st}

/-- Whether targets are held follows from the tables, the zones, and the station's state, cycle and recipe. -/
theorem targetsHeld_congr {t : Block} (ht : t.tab = s.tab) (hz : t.zrg.zones = s.zrg.zones)
    (hs : (stcOf t st).state = (stcOf s st).state) (hc : (stcOf t st).cycle = (stcOf s st).cycle)
    (hb : (stcOf t st).bound = (stcOf s st).bound) (h : targetsHeld s st) : targetsHeld t st := by
  have hentry : ∀ z, entryOf t z = entryOf s z := fun z => by rw [entryOf, ht, entryOf]
  have hzone : ∀ z, zoneOf t z = zoneOf s z := fun z => by rw [zoneOf, hz, zoneOf]
  intro z hmem hin
  have hmem' : z ∈ zonesOf s st := by
    simp only [zonesOf, hentry] at hmem ⊢
    exact hmem
  have hst : (entryOf t z).station = st := by
    simp only [zonesOf, List.mem_filter, Bool.and_eq_true, decide_eq_true_eq] at hmem
    exact hmem.2.2
  rw [hzone] at hin ⊢
  rw [← h z hmem' hin]
  exact zoneTarget_congr t s z ht (by rw [hst, hs]) (by rw [hst, hc]) (by rw [hst, hb])

/-- Where no station's targets move, an event adds only its PERMIT posts. -/
theorem event_posts {f : Block → Block} {s : Block} (hm : ∀ st, targetsHeld (f s) st ∨
    ((stcOf (f s) st).state = (stcOf s st).state ∧ permitRecord (f s) st = permitRecord s st)) :
    event f s = postPermits s (f s) := by
  obtain ⟨htab, hzrg, hstc⟩ := postPermits_spec s (f s)
  unfold event
  generalize postPermits s (f s) = x at htab hzrg hstc
  have still : ∀ st, moveIfChanged s st x = x := fun st => by
    obtain ⟨r, hr⟩ := hstc st
    unfold moveIfChanged
    split
    next => rfl
    next hne =>
      rcases hm st with hheld | ⟨hstate, hrecord⟩
      · exact moveTargets_targetsHeld x st
          (targetsHeld_congr htab (by rw [hzrg]) (by rw [hr]) (by rw [hr]) (by rw [hr]) hheld)
      · have hx : permitRecord x st = permitRecord (f s) st := by rw [permitRecord, permitRecord, hr]
        exact absurd ⟨by rw [stateOf, hr]; exact hstate, hx.trans hrecord⟩ hne
  simp only [moveAll, still, postPermits_self]

/-- What the posts of an event are: those of the stations whose permits or record number it changed, A's first. -/
theorem postPermits_eq (before s : Block) :
    ((∀ st, permitOf s st = permitOf before st) → postPermits before s = s) ∧
    (∀ st, permitOf s st ≠ permitOf before st → permitOf s (otherStation st) = permitOf before (otherStation st) →
      postPermits before s = postPermit st s) ∧
    (permitOf s .a ≠ permitOf before .a → permitOf s .b ≠ permitOf before .b →
      postPermits before s = postPermit .b (postPermit .a s)) := by
  have later : permitOf (postPermit .a s) .b = permitOf s .b := by
    obtain ⟨r, hr⟩ := stcOf_postPermit s .a .b
    apply permitOf_congr <;> rw [hr]
  unfold postPermits postIfChanged
  refine ⟨fun h => ?_, fun st hne he => ?_, fun ha hb => ?_⟩
  · simp only [h, if_true]
  · cases st with
    | a =>
      rw [if_neg hne]
      exact if_pos (later.trans he)
    | b => rw [if_pos (show permitOf s .a = permitOf before .a from he), if_neg hne]
  · rw [if_neg ha, if_neg (by rw [later]; exact hb)]

end Close

/-! ### SENSOR_STALE (R40) -/

theorem anyStale_iff (m : Vector MapEntry 96) : m.toList.any isStaleEntry = true ↔
    ∃ j, (vget m j).config ≠ none ∧ (vget m j).freshness = .stale := by
  have entry : ∀ e, isStaleEntry e = true ↔ e.config ≠ none ∧ e.freshness = .stale := fun e => by
    rw [isStaleEntry, Bool.and_eq_true, decide_eq_true_eq, Option.isSome_iff_ne_none]
  rw [List.any_eq_true]
  constructor
  · rintro ⟨e, he, hs⟩
    obtain ⟨j, hj, rfl⟩ := List.getElem_of_mem he
    rw [Vector.length_toList] at hj
    exact ⟨⟨j, hj⟩, (entry _).mp hs⟩
  · rintro ⟨j, hj⟩
    refine ⟨vget m j, ?_, (entry _).mpr hj⟩
    simp [vget]

theorem judgeStale_eq {s : Block} {stale : Bool}
    (h : stale = true ↔ ∃ j, (vget s.tab.map j).config ≠ none ∧ (vget s.tab.map j).freshness = .stale) :
    judgeStale s = setLevel .sensorStale stale s := by
  rw [judgeStale, Bool.eq_iff_iff.mpr ((anyStale_iff s.tab.map).trans h.symm)]

theorem event_tab (f : Block → Block) (s : Block) : (event f s).tab = (f s).tab := congrArg Prod.fst (staleView_event s f)

theorem deliverFault_tab (t : Target) (s : Block) : (deliverFault t s).tab = s.tab :=
  congrArg Prod.fst (staleView_deliverFault s t)

theorem deliverReading_tab (t : Target) (v : Int) (e : Edge) (s : Block) : (deliverReading t v e s).tab = s.tab :=
  congrArg Prod.fst (staleView_deliverReading s t v e)

theorem deliverStale_tab (t : Target) (s : Block) : (deliverStale t s).tab = s.tab :=
  congrArg Prod.fst (staleView_deliverStale s t)

/-! ### One entry (R32 to R38) -/

section Entry

variable {node : Nat} {e : SampleEntry} {s : Block} {i : Fin 96} {c : MapConfig}

theorem sampleEntry_eq (hi : entryWithKey s node e.channel = some i) (hc : (vget s.tab.map i).config = some c) :
    sampleEntry node e s = event (takeEntry i c e) s := by simp only [sampleEntry, hi, hc]

/-- Whether a reading jumps: only a zone sensor's value is judged, which is not reduced (R34, R36). -/
theorem jumps_iff (old : MapEntry) (v : Int) : jumps c old v = true ↔
    isZoneSensor c.target = true ∧ old.freshness = .fresh ∧ c.jumpLimit < (reduceValue c.target v - old.held).natAbs := by
  rw [jumps, Bool.and_eq_true, Bool.and_eq_true, decide_eq_true_eq, decide_eq_true_eq, and_assoc]
  refine and_congr_right fun hz => ?_
  have hv : reduceValue c.target v = v := by
    cases ht : c.target with
    | zoneSensor z sl => rfl
    | _ => rw [ht] at hz; cases hz
  rw [hv]

theorem takeEntry_faulted (h : e.quality ≠ 0 ∨ inRange c.target (reduceValue c.target e.value) = false) :
    takeEntry i c e s = deliverFault c.target (modEntry i (faultedEntry e.quality) s) := by
  have hj : judgeReading c (vget s.tab.map i) e.quality e.value = .faulted := by
    unfold judgeReading
    by_cases hq : e.quality ≠ 0
    · rw [if_pos hq]
    · rw [if_neg hq, if_pos (by rw [h.resolve_left hq]; rfl)]
  rw [takeEntry, hj]

theorem takeEntry_heldBack (hq : e.quality = 0) (hr : inRange c.target (reduceValue c.target e.value) = true)
    (hj : jumps c (vget s.tab.map i) e.value = true) (h2 : (vget s.tab.map i).jumps < 2) :
    takeEntry i c e s = deliverFault c.target (modEntry i heldBackEntry s) := by
  have h : judgeReading c (vget s.tab.map i) e.quality e.value = .heldBack := by
    rw [judgeReading, if_neg (not_not.mpr hq), hr, hj, decide_eq_true h2]
    rfl
  rw [takeEntry, h]

theorem takeEntry_accepted (hq : e.quality = 0) (hr : inRange c.target (reduceValue c.target e.value) = true)
    (hj : ¬ jumps c (vget s.tab.map i) e.value = true ∨ 2 ≤ (vget s.tab.map i).jumps) :
    takeEntry i c e s = acceptReading i c (reduceValue c.target e.value) s := by
  have h : judgeReading c (vget s.tab.map i) e.quality e.value = .accepted := by
    have hnot : (jumps c (vget s.tab.map i) e.value && decide ((vget s.tab.map i).jumps < 2)) = false := by
      rcases hj with hj | h2
      · rw [Bool.eq_false_iff.mpr hj, Bool.false_and]
      · rw [decide_eq_false (Nat.not_lt.mpr h2), Bool.and_false]
    rw [judgeReading, if_neg (not_not.mpr hq), hr, hnot]
    rfl
  rw [takeEntry, h]

/-- The edge of an accepted reading (R42). -/
theorem edgeOf_eq (t : Target) (old : MapEntry) (v : Int) : edgeOf t old v =
    if isBinary t = true ∧ old.freshness ≠ .never ∧ old.held ≠ v then (if v = 1 then .rising else .falling) else .none := by
  unfold edgeOf
  by_cases hb : isBinary t = true
  · by_cases hn : old.freshness = .never
    · simp [hb, hn]
    · by_cases hh : old.held = v
      · simp [hb, hn, hh]
      · simp [hb, hn, hh]
  · simp [hb]

end Entry

/-- Settles O22. -/
theorem sampleEntryJudged : Obligations.SampleEntryJudged := by
  intro node e s
  refine ⟨fun h => by simp only [sampleEntry, h], fun i c hi hc => ?_, fun z sl st sig v edge => ?_, fun b => ?_,
    fun v z sl st => ?_⟩
  · intro old v leaves far put takes faulted back fresh edge
    have hjumps : jumps c old e.value = true ↔ far := jumps_iff old e.value
    have run : ∀ b, takeEntry i c e s = b → takes b := fun b hb => (sampleEntry_eq hi hc).trans (event_congr hb)
    refine ⟨fun h => ?_, fun hq hr hf h2 => ?_, fun hq hr hf => ⟨?_, fun stale hs => ?_⟩⟩
    · have h1 := run _ (takeEntry_faulted h)
      exact ⟨by simp only [leaves]; rw [h1, event_tab, deliverFault_tab]; rfl, h1⟩
    · have h1 := run _ (takeEntry_heldBack hq hr (hjumps.mpr hf) h2)
      exact ⟨by simp only [leaves]; rw [h1, event_tab, deliverFault_tab]; rfl, h1⟩
    · have h1 := run _ (takeEntry_accepted hq hr (hf.imp_left fun hn hj => hn (hjumps.mp hj)))
      simp only [leaves]
      rw [h1, event_tab, acceptReading, deliverReading_tab, judgeStale, setLevel_tab]
      rfl
    · refine run _ ((takeEntry_accepted hq hr (hf.imp_left fun hn hj => hn (hjumps.mp hj))).trans ?_)
      have hstale : judgeStale (modEntry i (acceptedEntry (reduceValue c.target e.value)) s) =
        setLevel .sensorStale stale (put fresh) := judgeStale_eq hs
      rw [acceptReading, edgeOf_eq, hstale]
      rfl
  · exact ⟨rfl, rfl, rfl, rfl, fun h1 h2 => by cases sig <;> first | rfl | exact absurd rfl h1 | exact absurd rfl h2⟩
  · intro kept hm
    have hkept : ∀ st, kept st ↔ permitOf b st = permitOf s st := fun st => by
      simp only [kept, permitOf, Prod.mk.injEq]
    obtain ⟨h0, h1, h2⟩ := postPermits_eq s b
    rw [event_posts hm]
    simp only [hkept]
    exact ⟨h0, h1, h2⟩
  · refine ⟨?_, ?_, ?_, ?_, ?_, fun t ht => ?_⟩
    any_goals simp only [inRange, Bool.and_eq_true, decide_eq_true_eq]
    cases t with
    | zoneSensor z sl => cases ht
    | scaleRaw => cases ht
    | scaleDone => rfl
    | stationSignal st sig => cases sig <;> first | rfl | cases ht

/-! ### An entry gone stale (R39, R40) -/

theorem countFault_eq (z : Fin 32) (sl : Slot) (b : Block) :
    ((zoneOf b z).state = .disabled → countFault z sl b = b) ∧
    ((zoneOf b z).state ≠ .disabled → countFault z sl b = modZone z (fun _ => match sl with
      | .zero => { zoneOf b z with faults0 := min ((zoneOf b z).faults0 + 1) 255 }
      | .one => { zoneOf b z with faults1 := min ((zoneOf b z).faults1 + 1) 255 }) b) := by
  have hc : countFault z sl b = modZone z (fun _ => if (zoneOf b z).state = .disabled then zoneOf b z else match sl with
      | .zero => { zoneOf b z with faults0 := min ((zoneOf b z).faults0 + 1) 255 }
      | .one => { zoneOf b z with faults1 := min ((zoneOf b z).faults1 + 1) 255 }) b := rfl
  refine ⟨fun h => ?_, fun h => ?_⟩
  · have hset : vset b.zrg.zones z (zoneOf b z) = b.zrg.zones := by
      apply vget_ext
      intro j
      rw [vget_vset]
      split
      next e => rw [← e, zoneOf]
      next => rfl
    rw [hc, if_pos h, modZone, hset]
  · rw [hc, if_neg h]

/-- A zone of no station's record: counting a fault is all of its event. -/
theorem event_countFault (z : Fin 32) (sl : Slot) {x s : Block} (h : x.stc = s.stc) :
    event (fun _ => countFault z sl x) s = countFault z sl x := event_of_stc _ _ h

/-- Settles O23. -/
theorem sampleEntryGoesStale : Obligations.SampleEntryGoesStale := by
  intro i s old gone
  refine ⟨fun c hc hf => ?_, fun h => ?_, fun b st z sl => ⟨rfl, rfl, rfl, ?_, fun v => rfl⟩,
    fun z sl b => countFault_eq z sl b⟩
  · have hstale : judgeStale (modEntry i (staleEntry c.freshLimit) s.toBlock) = setLevel .sensorStale true
        { s.toBlock with tab := { s.tab with map := vset s.tab.map i (gone c) } } := by
      refine judgeStale_eq ⟨fun _ => ⟨i, ?_, ?_⟩, fun _ => rfl⟩
      · simp only [modEntry, vget_vset_self, staleEntry]
        rw [hc]
        exact Option.some_ne_none c
      · simp only [modEntry, vget_vset_self, staleEntry]
    have hgone : entryGoesStale i s.toBlock = deliverStale c.target (setLevel .sensorStale true
        { s.toBlock with tab := { s.tab with map := vset s.tab.map i (gone c) } }) := by
      have hc' : (vget s.tab.map i).config = some c := hc
      unfold entryGoesStale
      rw [hc', ← hstale]
      exact if_pos hf
    have hexec : exec (.sampleEntryStale i) s = .next (s.closing (event (fun _ => deliverStale c.target
        (setLevel .sensorStale true { s.toBlock with tab := { s.tab with map := vset s.tab.map i (gone c) } })) s.toBlock)) :=
      finish_eq (event_congr hgone)
    refine ⟨⟨_, hexec, rfl, ?_⟩, hexec, fun z sl ht => ?_⟩
    · have hview := (staleView_event s.toBlock (fun _ => deliverStale c.target (setLevel .sensorStale true
        { s.toBlock with tab := { s.tab with map := vset s.tab.map i (gone c) } }))).trans (staleView_deliverStale _ _)
      simp only [staleView, Prod.mk.injEq] at hview
      obtain ⟨htab, hp, hl⟩ := hview
      obtain ⟨hp19, hl19, -⟩ := conditionLevels .sensorStale true
        { s.toBlock with tab := { s.tab with map := vset s.tab.map i (gone c) } }
      simp only [State.closing, arbitrate_tab, arbitrate_cdu]
      refine ⟨htab.trans (setLevel_tab _ _ _), hp.trans ((hp19 19 (by decide)).trans (if_pos rfl)),
        hl.trans ((hl19 19 (by decide)).trans ?_)⟩
      rfl
    · rw [hexec, ht]
      exact congrArg (fun b => Host.Outcome.next (s.closing b)) (event_countFault z sl (setLevel_stc _ _ _))
  · have hsame : entryGoesStale i s.toBlock = s.toBlock := by
      unfold entryGoesStale
      split
      next c hc => exact if_neg (h.resolve_left (by rw [hc]; exact Option.some_ne_none c))
      next => rfl
    refine finish_eq ?_
    rw [event_of_stc _ _ (by rw [hsame]), hsame]
  · rintro sig (rfl | rfl) <;> rfl

end Sys2Proof.Machine
end

section
/-! PROOFS. Moves of targets as an event calls for them (R106), and the station commands BIND_RECIPE and WAKE (R61, R62). -/

namespace Sys2Proof.Machine

open Sys2Proof

/-! ### The zones that a move of targets reports (R106) -/

/-- An enabled zone of the station, in band, judged at another target than it has. -/
def outAt (s : Block) (st : Station) (z : Fin 32) : Bool :=
  decide (z ∈ zonesOf s st) && (zoneOf s z).inBand && decide (zoneTarget s z ≠ (zoneOf s z).lastTarget)

/-- Some zone reports. -/
def anyOut (s : Block) (st : Station) : Bool := (List.finRange 32).any (outAt s st)

section Moves

variable {s : Block} {st : Station}

theorem outAt_eq_true {z : Fin 32} : outAt s st z = true ↔
    z ∈ zonesOf s st ∧ (zoneOf s z).inBand = true ∧ zoneTarget s z ≠ (zoneOf s z).lastTarget := by
  simp only [outAt, Bool.and_eq_true, decide_eq_true_eq, and_assoc]

theorem anyOut_eq_false_of_noBand (h : noBand s st) : anyOut s st = false := by
  rw [anyOut, List.any_eq_false]
  intro z _ hz
  obtain ⟨hmem, hin, -⟩ := outAt_eq_true.mp hz
  rw [h z hmem] at hin
  cases hin

/-- What the station's own zones report in turn is what a move of its targets reports. -/
theorem any_zonesOf : ((zonesOf s st).any fun z =>
    (zoneOf s z).inBand && decide (zoneTarget s z ≠ (zoneOf s z).lastTarget)) = anyOut s st := by
  rw [Bool.eq_iff_iff, anyOut, List.any_eq_true, List.any_eq_true]
  constructor
  · rintro ⟨z, hmem, hz⟩
    refine ⟨z, List.mem_finRange z, outAt_eq_true.mpr ⟨hmem, ?_⟩⟩
    simpa using hz
  · rintro ⟨z, -, hz⟩
    obtain ⟨hmem, hz⟩ := outAt_eq_true.mp hz
    exact ⟨z, hmem, by simpa using hz⟩

/-- A move of the targets of a station in neither READY nor CURING. -/
theorem moveTargets_spec (hr : (stcOf s st).state ≠ .ready) (hc : (stcOf s st).state ≠ .curing) :
    let b := moveTargets st s
    stcOf b st = { stcOf s st with
      inBand := (stcOf b st).inBand
      settle := if anyOut s st = true then none else (stcOf s st).settle
      heatReady := if anyOut s st = true then false else (stcOf s st).heatReady
      closeOk := if anyOut s st = true then false else (stcOf s st).closeOk } ∧
    (∀ z, vget (stcOf b st).inBand z = if outAt s st z = true then false else vget (stcOf s st).inBand z) ∧
    (∀ z, zoneOf b z = { zoneOf s z with inBand := if outAt s st z = true then false else (zoneOf s z).inBand }) ∧
    stcOf b (otherStation st) = stcOf s (otherStation st) ∧
    b = { s with stc := b.stc, zrg := { s.zrg with zones := b.zrg.zones } } := by
  have h := reportMoved_foldl (zonesOf s st) (zonesOf_nodup s st) st s (fun z hz => ((mem_zonesOf s st z).mp hz).2) hr hc
  rw [← moveTargets_foldl] at h
  have hout : ∀ z, (z ∈ zonesOf s st ∧
      ((zoneOf s z).inBand && decide (zoneTarget s z ≠ (zoneOf s z).lastTarget)) = true) ↔ outAt s st z = true := fun z => by
    rw [outAt_eq_true, Bool.and_eq_true, decide_eq_true_eq]
  simp only [any_zonesOf, hout] at h
  exact h

/-- After a move no target of the station is left to move. -/
theorem targetsHeld_moveTargets (hr : (stcOf s st).state ≠ .ready) (hc : (stcOf s st).state ≠ .curing) :
    targetsHeld (moveTargets st s) st := by
  obtain ⟨hst, -, hz, -, hb⟩ := moveTargets_spec hr hc
  generalize moveTargets st s = b at hst hz hb
  have htab : b.tab = s.tab := by rw [hb]
  intro z hmem hin
  rw [zonesOf_congr st htab] at hmem
  have hstation : (entryOf b z).station = st := by
    rw [entryOf, htab]
    exact ((mem_zonesOf s st z).mp hmem).2
  have htarget : zoneTarget b z = zoneTarget s z := by
    refine zoneTarget_congr b s z htab ?_ ?_ ?_ <;> rw [hstation, hst]
  rw [hz] at hin
  rw [hz, htarget]
  by_contra hne
  have hzone : (zoneOf s z).inBand = true := by
    by_cases h : outAt s st z = true
    · simp [h] at hin
    · simpa [h] using hin
  have hout : outAt s st z = true := outAt_eq_true.mpr ⟨hmem, hzone, hne⟩
  simp [hout] at hin

/-- A move changes no permit where CLOSE_OK is clear, or no zone is in band. -/
theorem permitOf_moveTargets (hr : (stcOf s st).state ≠ .ready) (hc : (stcOf s st).state ≠ .curing)
    (hk : noBand s st ∨ (stcOf s st).closeOk = false) (x : Station) :
    permitOf (moveTargets st s) x = permitOf s x := by
  obtain ⟨hst, -, -, ho, -⟩ := moveTargets_spec hr hc
  by_cases hx : x = st
  · subst hx
    apply permitOf_congr <;> rw [hst]
    rcases hk with hn | hk
    · simp [anyOut_eq_false_of_noBand hn]
    · simp [hk]
  · have hx : x = otherStation st := by cases x <;> cases st <;> first | rfl | exact absurd rfl hx
    subst hx
    apply permitOf_congr <;> rw [ho]

theorem event_moveTargets (hr : (stcOf s st).state ≠ .ready) (hc : (stcOf s st).state ≠ .curing)
    (hk : noBand s st ∨ (stcOf s st).closeOk = false) : thenMove st s = moveTargets st s := by
  obtain ⟨-, -, -, ho, -⟩ := moveTargets_spec hr hc
  exact event_of_targetsHeld _ _ st ho (permitOf_moveTargets hr hc hk st) (targetsHeld_moveTargets hr hc)

/-- An event that takes one station into another state without a permit moves its targets, and posts nothing. -/
theorem event_moved {f : Block → Block} {x : Block} (hf : f s = x)
    (ho : stcOf x (otherStation st) = stcOf s (otherStation st)) (hp : permitOf x st = permitOf s st)
    (hs : (stcOf x st).state ≠ (stcOf s st).state) (hr : (stcOf x st).state ≠ .ready)
    (hc : (stcOf x st).state ≠ .curing) (hk : noBand x st ∨ (stcOf x st).closeOk = false) :
    event f s = moveTargets st x := by
  have hother : permitOf x (otherStation st) = permitOf s (otherStation st) := by apply permitOf_congr <;> rw [ho]
  have permits : ∀ y, permitOf x y = permitOf s y := fun y => by
    by_cases hy : y = st
    · exact hy ▸ hp
    · have hy : y = otherStation st := by cases y <;> cases st <;> first | rfl | exact absurd rfl hy
      exact hy ▸ hother
  have posts : postPermits s x = x := (postPermits_eq s x).1 permits
  have here : ∀ b : Block, stateOf b st = stateOf x st → moveIfChanged s st b = moveTargets st b := fun b hb =>
    if_neg fun h => hs ((hb.symm.trans h.1))
  have there : ∀ b : Block, stcOf b (otherStation st) = stcOf x (otherStation st) →
      moveIfChanged s (otherStation st) b = b := fun b hb =>
    if_pos ⟨by rw [stateOf, hb, ho, stateOf], by rw [permitRecord, hb, ho, permitRecord]⟩
  have moved : moveAll s x = moveTargets st x := by
    obtain ⟨hst, -, -, hmo, -⟩ := moveTargets_spec hr hc
    unfold moveAll
    cases st with
    | a => rw [here x rfl]; exact there _ hmo
    | b => rw [show moveIfChanged s .a x = x from there x rfl]; exact here x rfl
  unfold event
  rw [hf, posts]
  dsimp only
  rw [moved]
  exact (postPermits_eq x _).1 (permitOf_moveTargets hr hc hk)

/-- An event that changes one station's state or not, but no permit, then a move of that station's targets. -/
theorem thenMove_event {f : Block → Block} {x : Block} (hf : f s = x)
    (ho : stcOf x (otherStation st) = stcOf s (otherStation st)) (hp : permitOf x st = permitOf s st)
    (hr : (stcOf x st).state ≠ .ready) (hc : (stcOf x st).state ≠ .curing)
    (hk : noBand x st ∨ (stcOf x st).closeOk = false) : thenMove st (event f s) = moveTargets st x := by
  by_cases hs : (stcOf x st).state = (stcOf s st).state
  · have held : event f s = x := by
      have cases_of (P : Station → Prop) (h : P st) (h' : P (otherStation st)) (y : Station) : P y := by
        cases y <;> cases st <;> assumption
      rw [← hf]
      refine event_eq f s (hf ▸ cases_of _ hp ?_) (hf ▸ cases_of _ hs ?_)
      · apply permitOf_congr <;> rw [ho]
      · rw [stateOf, ho, stateOf]
    rw [held, event_moveTargets hr hc hk]
  · rw [event_moved hf ho hp hs hr hc hk]
    obtain ⟨hst, -, -, -, -⟩ := moveTargets_spec hr hc
    have held := targetsHeld_moveTargets (s := x) (st := st) hr hc
    have hr' : (stcOf (moveTargets st x) st).state ≠ .ready := by rw [hst]; exact hr
    have hc' : (stcOf (moveTargets st x) st).state ≠ .curing := by rw [hst]; exact hc
    have hk' : noBand (moveTargets st x) st ∨ (stcOf (moveTargets st x) st).closeOk = false := by
      rcases hk with hn | hk
      · rw [moveTargets_targetsHeld x st fun z hz hin => by rw [hn z hz] at hin; cases hin]
        exact .inl hn
      · refine .inr ?_
        rw [hst]
        simp [hk]
    rw [event_moveTargets hr' hc' hk', moveTargets_targetsHeld _ _ held]

/-- What a move reports, read from the block before the event that moved the targets. -/
theorem outAt_of {x : Block} {T : Fin 32 → Int} (htab : x.tab = s.tab)
    (hz : ∀ z, (zoneOf x z).inBand = (zoneOf s z).inBand ∧ (zoneOf x z).lastTarget = (zoneOf s z).lastTarget)
    (hT : ∀ z, (entryOf s z).station = st → zoneTarget x z = T z) (z : Fin 32) :
    outAt x st z = (decide (z ∈ zonesOf s st) && (zoneOf s z).inBand && decide (T z ≠ (zoneOf s z).lastTarget)) := by
  obtain ⟨hin, hlast⟩ := hz z
  rw [outAt, zonesOf_congr st htab, hin, hlast]
  by_cases hmem : z ∈ zonesOf s st
  · rw [hT z ((mem_zonesOf s st z).mp hmem).2]
  · simp [hmem]

/-- A station in OFF or STANDBY has its zones' standby setpoints as targets. -/
theorem zoneTarget_cold {z : Fin 32} (hz : (entryOf s z).station = st)
    (h : (stcOf s st).state = .off ∨ (stcOf s st).state = .standby) : zoneTarget s z = (entryOf s z).standbySetpoint := by
  unfold zoneTarget stateOf
  rcases h with h | h <;> simp [hz, h]

/-- A station in any other state has the targets of the recipe it works by. -/
theorem zoneTarget_heat {z : Fin 32} {r : Recipe} (hz : (entryOf s z).station = st)
    (ho : (stcOf s st).state ≠ .off) (hs : (stcOf s st).state ≠ .standby) (hr : recipeFor s st = some r) :
    zoneTarget s z = max 0 (min ((match (entryOf s z).platen with
      | .upper => (r.upper : Int)
      | .lower => (r.lower : Int)) + (entryOf s z).offset) 4000) := by
  unfold zoneTarget stateOf
  simp only [hz, hr]
  cases hst : (stcOf s st).state <;> simp only [hst, ne_eq, not_true_eq_false] at ho hs <;>
    cases (entryOf s z).platen <;> rfl

end Moves

/-! ### The settle timer (R66) -/

theorem modStc_of_fixed {st : Station} {f : Stc → Stc} {s : Block} (h : f (stcOf s st) = stcOf s st) :
    modStc st f s = s := by
  unfold modStc
  rw [show f (s.stc.get st) = s.stc.get st from h]
  cases st <;> rfl

/-- The end of NO_CYCLE (R69). -/
theorem setNoCycle_none (st : Station) (s : Block) : setNoCycle st .none s =
    { modStc st (fun c => { c with noCycle := .none }) s with
      cdu := { s.cdu with present := s.cdu.present &&& ~~~(1#23 <<< (5 * stationNum st + 3)) } } := rfl

/-- At an event that finds it stopped, the settle timer starts where every enabled zone is in band. -/
theorem startSettle_eq {st : Station} {s : Block} {r : Recipe} (hmay : settleMayRun (stcOf s st).state = true)
    (hnone : (stcOf s st).settle = none) (hr : recipeFor s st = some r) :
    startSettle st s = modStc st (fun c => { c with
      settle := if allInBand s st = true then some { elapsed := 0, length := r.settle * 1000 } else none }) s := by
  unfold startSettle
  simp only [hmay, hnone, hr, Option.isNone_none, Bool.true_and]
  split
  · rfl
  · exact (modStc_of_fixed (by rw [← hnone])).symm

/-! ### A station command and its answer -/

/-- What a station command answers once its request is admitted. -/
theorem station_answers {c : Instr} {q : Sender} {sb arg : Byte} {n : Nat} {s : State} {s1 b : Block}
    {act : Station → Block → Answer} {st : Station} {status : Status} {body : List Byte}
    (hexec : exec c s = finish (whenTaken (stationRequest q sb n arg) (serveStation q sb act)) s)
    (h : admitted (stationRequest q sb n arg) s.toBlock s1) (hs : stationOf sb.toNat = some st)
    (hact : act st s1 = { status := status, body := body, after := b }) : answered c s q 0x04 status body b := by
  unfold answered
  rw [hexec, station_admitted h act st hs, hact]
  rfl

/-! ### A station leaves OFF or STANDBY for PREHEAT (R62, R89) -/

/-- What a wake makes of the station's zones: those in OFF leave it with their station. -/
def leftOff (s : Block) (st : Station) (z : Fin 32) : Zone :=
  if (stcOf s st).state = .off ∧ z ∈ zonesOf s st ∧ (zoneOf s z).state = .off then
    { zoneOf s z with
      state := .regulating, iq := 0, r := 0, blindHold := none
      wsp := if slotFresh s z (zoneOf s z).slot = true then slotHeld s z (zoneOf s z).slot
        else if slotFresh s z (otherSlot (zoneOf s z).slot) = true then slotHeld s z (otherSlot (zoneOf s z).slot)
        else 0 }
  else zoneOf s z

theorem leftOff_judged (s : Block) (st : Station) (z : Fin 32) :
    (leftOff s st z).inBand = (zoneOf s z).inBand ∧ (leftOff s st z).lastTarget = (zoneOf s z).lastTarget := by
  unfold leftOff
  split <;> exact ⟨rfl, rfl⟩

/-- The zones of a station follow it out of OFF; the station's own context was changed first. -/
theorem followFrom_spec {s x : Block} {st : Station} (htab : x.tab = s.tab) (hzrg : x.zrg = s.zrg) :
    let b := followFrom (stcOf s st).state st x
    b = { x with zrg := { x.zrg with zones := b.zrg.zones } } ∧ ∀ z, zoneOf b z = leftOff s st z := by
  have zones : zonesOf x st = zonesOf s st := zonesOf_congr st htab
  have hzone (z : Fin 32) : zoneOf x z = zoneOf s z := by rw [zoneOf, hzrg, zoneOf]
  intro b
  unfold b followFrom
  split
  · next hoff =>
    obtain ⟨hb, hz⟩ := leaveOff_foldl (zonesOf x st) (zonesOf_nodup x st) x
    refine ⟨hb, fun z => (hz z).trans ?_⟩
    unfold leftOff initialWsp slotFresh slotHeld
    simp only [zones, hzone, isFresh_congr htab, heldOf_congr htab, hoff, true_and]
  · next hoff =>
    refine ⟨rfl, fun z => ?_⟩
    rw [hzone, leftOff, if_neg fun h => hoff h.1]

/-- The station enters PREHEAT, before any target moves. -/
theorem enterHeat_spec {s : Block} {st : Station} {i : Fin 16} (hb : (stcOf s st).bound = some i)
    (hy : (stcOf s st).cycle = none) :
    let x := enterHeat st s
    stcOf x st = { stcOf s st with
      state := .preheat, heatReady := false
      settle := if allInBand s st = true then some { elapsed := 0, length := (vget s.tab.recipes i).settle * 1000 }
        else none } ∧
    stcOf x (otherStation st) = stcOf s (otherStation st) ∧
    (∀ z, zoneOf x z = leftOff s st z) ∧
    x = { s with stc := x.stc, zrg := { s.zrg with zones := x.zrg.zones } } := by
  intro x
  let w := modStc st (fun c => { c with state := .preheat, heatReady := false, settle := none }) s
  have hw : stcOf w st = { stcOf s st with state := .preheat, heatReady := false, settle := none } :=
    stcOf_modStc_self s st _
  obtain ⟨hf, hz⟩ := followFrom_spec (s := s) (x := w) (st := st) rfl rfl
  have hx : x = startSettle st (followFrom (stcOf s st).state st w) := rfl
  generalize followFrom (stcOf s st).state st w = y at hf hz hx
  have hyst (st' : Station) : stcOf y st' = stcOf w st' := by rw [hf]; rfl
  have htab : y.tab = s.tab := by rw [hf]; rfl
  have band : allInBand y st = allInBand s st := allInBand_congr st htab (by rw [hyst, hw])
  rw [startSettle_eq (r := vget s.tab.recipes i), band] at hx
  · rw [hx]
    refine ⟨?_, ?_, ?_, ?_⟩
    · rw [stcOf_modStc_self, hyst, hw]
    · rw [stcOf_modStc_other, hyst]; exact stcOf_modStc_other s st _
    · intro z; rw [zoneOf_modStc, hz]
    · rw [hf]; rfl
  · rw [hyst, hw]; rfl
  · rw [hyst, hw]
  · simp only [recipeFor, hyst, hw, hy, hb, htab, Option.map_some]

/-! ### BIND_RECIPE (R61) -/

section Bind

variable {s : Block} {st : Station} {i : Fin 16}

/-- The station's context by an accepted bind, before any target moves. -/
def boundStc (s : Block) (st : Station) (i : Fin 16) : Stc :=
  let c := stcOf s st
  let heat : Bool := decide (c.state = .preheat ∨ c.state = .ready)
  { c with
    bound := some i
    state := if heat = true then .preheat else c.state
    noCycle := if heat = true then .none else c.noCycle
    heatReady := if heat = true then false else c.heatReady
    settle := if heat = true then
        (if allInBand s st = true then some { elapsed := 0, length := (vget s.tab.recipes i).settle * 1000 } else none)
      else c.settle }

/-- An accepted bind before any target moves. -/
theorem bindEffect_eq (hy : (stcOf s st).cycle = none) : bindEffect st i s =
    { modStc st (fun _ => boundStc s st i) s with
      cdu := if decide ((stcOf s st).state = .preheat ∨ (stcOf s st).state = .ready) = true then
          { s.cdu with present := s.cdu.present &&& ~~~(1#23 <<< (5 * stationNum st + 3)) }
        else s.cdu } := by
  have started (x : Block) (hst : stcOf x st = { stcOf s st with
        bound := some i, state := .preheat, heatReady := false, settle := none, noCycle := .none })
      (htab : x.tab = s.tab) : startSettle st x = modStc st (fun c => { c with
        settle := if allInBand s st = true then some { elapsed := 0, length := (vget s.tab.recipes i).settle * 1000 }
          else none }) x := by
    have band : allInBand x st = allInBand s st := allInBand_congr st htab (by rw [hst])
    rw [startSettle_eq (r := vget s.tab.recipes i), band]
    · rw [hst]; rfl
    · rw [hst]
    · simp only [recipeFor, hst, hy, htab, Option.map_some]
  have heated (hs : (stcOf s st).state = .preheat ∨ (stcOf s st).state = .ready) :
      startSettle st (setNoCycle st .none
        (modStc st (fun c => { c with state := .preheat, heatReady := false, settle := none })
          (modStc st (fun c => { c with bound := some i }) s))) =
      { modStc st (fun _ => boundStc s st i) s with
        cdu := { s.cdu with present := s.cdu.present &&& ~~~(1#23 <<< (5 * stationNum st + 3)) } } := by
    have same := modStc_congr st (fun _ => boundStc s st i) (fun c => { c with
        bound := some i, state := .preheat, heatReady := false, noCycle := .none
        settle := if allInBand s st = true then some { elapsed := 0, length := (vget s.tab.recipes i).settle * 1000 }
          else none }) s (by unfold boundStc; rcases hs with hs | hs <;> simp [hs])
    rw [started]
    · rw [setNoCycle_none, same]
      cases st <;> rfl
    · simp only [stcOf_setNoCycle, modStc_modStc, stcOf_modStc_self]
    · rfl
  unfold bindEffect stateOf
  have bound (hs : (stcOf s st).state ≠ .preheat ∧ (stcOf s st).state ≠ .ready) :
      modStc st (fun c => { c with bound := some i }) s = modStc st (fun _ => boundStc s st i) s :=
    modStc_congr st _ _ s (by unfold boundStc; simp [hs])
  by_cases hs : (stcOf s st).state = .preheat ∨ (stcOf s st).state = .ready
  · rw [if_pos (decide_eq_true hs), ← heated hs]
    rcases hs with hs | hs <;> simp only [hs]
  · rw [if_neg (by simpa using hs)]
    rw [not_or] at hs
    rw [← bound hs]
    split
    · exact absurd ‹_› hs.1
    · exact absurd ‹_› hs.2
    · rfl

end Bind

/-- Settles O30: a bind, then one move of the station's targets. -/
theorem bindRecipe : Obligations.BindRecipe := by
  intro q sb arg st s s1 hadm hs c ends
  have refused {status : Status} (h : ownBind arg st s1 = refuse status s1) : ends status [] s1 :=
    station_answers rfl hadm hs h
  have hstate : stateOf s1 st = c.state := rfl
  refine ⟨fun hc => refused ?_, fun hc harg => refused ?_, fun i hc harg => ⟨fun hn => refused ?_, fun hn hy hk => ?_⟩⟩
  · simp only [ownBind, hstate, hc, if_true]
  · have hi : recipeIndexOf arg.toNat = none := dif_neg (by omega)
    simp only [ownBind, hstate, hc, hi, Bool.false_eq_true, if_false]
  · have hi : recipeIndexOf arg.toNat = some i := by
      unfold recipeIndexOf; rw [dif_pos (by omega)]; exact congrArg some (Fin.ext harg)
    simp only [ownBind, hstate, hc, hi, hn, Bool.false_eq_true, if_false, Option.isNone_none, if_true]
  have hi : recipeIndexOf arg.toNat = some i := by
    unfold recipeIndexOf; rw [dif_pos (by omega)]; exact congrArg some (Fin.ext harg)
  intro recipe heat T out any
  have hy' : (stcOf s1 st).cycle = none := hy
  have hx := bindEffect_eq (s := s1) (st := st) (i := i) hy
  generalize hbe : bindEffect st i s1 = x at hx
  have hst : stcOf x st = boundStc s1 st i := by rw [hx]; exact stcOf_modStc_self s1 st fun _ => boundStc s1 st i
  have ho : stcOf x (otherStation st) = stcOf s1 (otherStation st) := by rw [hx]; exact stcOf_modStc_other s1 st fun _ => boundStc s1 st i
  have htab : x.tab = s1.tab := by rw [hx]; rfl
  have hz (z : Fin 32) : zoneOf x z = zoneOf s1 z := by rw [hx]; rfl
  have hstate : (stcOf x st).state = if heat = true then .preheat else c.state := by rw [hst]; rfl
  have hheat : heat = true ∨ heat = false ∧ (c.state = .off ∨ c.state = .standby) := by
    cases h : c.state <;> simp [h, isCycleState, heat] at hc ⊢
  have hstates : (stcOf x st).state = .preheat ∨ (stcOf x st).state = .off ∨ (stcOf x st).state = .standby := by
    rw [hstate]
    rcases hheat with h | ⟨h, hcold⟩
    · exact .inl (if_pos h)
    · exact .inr (by simpa [h] using hcold)
  have hr : (stcOf x st).state ≠ .ready := by rcases hstates with h | h | h <;> simp [h]
  have hcu : (stcOf x st).state ≠ .curing := by rcases hstates with h | h | h <;> simp [h]
  have hclose : (stcOf x st).closeOk = false := by rw [hst]; exact hk
  have htarget (z : Fin 32) (hz : (entryOf s1 z).station = st) : zoneTarget x z = T z := by
    have hz' : (entryOf x z).station = st := by rw [entryOf, htab]; exact hz
    have he : entryOf x z = entryOf s1 z := by rw [entryOf, htab]; rfl
    rcases hheat with h | ⟨h, hcold⟩
    · have hp : (stcOf x st).state = .preheat := by rw [hstate, if_pos h]
      rw [zoneTarget_heat (r := recipe) hz' (by rw [hp]; decide) (by rw [hp]; decide)
        (by simp only [recipeFor, hst, boundStc, hy', htab, Option.map_some]; rfl), he]
      exact (if_pos h).symm
    · rw [zoneTarget_cold hz' (by rw [hstate, if_neg (by simp [h])]; exact hcold), he]
      exact (if_neg (by simp [h])).symm
  have hout (z : Fin 32) : outAt x st z = out z := outAt_of htab (fun z => by simp only [hz, and_self]) htarget z
  have hany : anyOut x st = any := by
    unfold anyOut
    rw [show outAt x st = out from funext hout]
  have moved := thenMove_event (f := bindEffect st i) hbe ho (by apply permitOf_congr <;> rw [hst] <;> rfl) hr hcu (.inr hclose)
  have hspec := moveTargets_spec hr hcu
  simp only [hout, hany] at hspec
  obtain ⟨bst, binb, bz, bo, bb⟩ := hspec
  refine ⟨moveTargets st x, station_answers rfl hadm hs ?_, ?_, ?_, ?_, ?_, ?_⟩
  · have hown : stateOf s1 st = c.state := rfl
    have hsome : (chainOf s1 recipe).isNone = false := Option.isNone_eq_false_iff.mpr (Option.isSome_iff_ne_none.mpr hn)
    simp only [ownBind, hown, hc, hi, Bool.false_eq_true, if_false]
    rw [moved]
    exact if_neg (by rw [hsome]; decide)
  · rw [bst, hst]
    have hheq : decide ((stcOf s1 st).state = .preheat ∨ (stcOf s1 st).state = .ready) = heat := rfl
    have hk' : (stcOf s1 st).closeOk = false := hk
    simp only [boundStc, hheq]
    rcases Bool.eq_false_or_eq_true any with ha | ha <;> rcases Bool.eq_false_or_eq_true heat with hh | hh <;>
      simp [ha, hh, hk', c, recipe]
  · intro z
    rw [binb, hst]
    rfl
  · intro z
    rw [bz, hz]
  · rw [bo, ho]
  · rw [bb]
    generalize moveTargets st x = m
    rw [hx]
    rfl

/-! ### WAKE (R62) -/

theorem wakeAllowed_iff {s : Block} {st : Station} : wakeAllowed s st = true ↔
    ((stcOf s st).state = .off ∨ (stcOf s st).state = .standby) ∧ (stcOf s st).bound ≠ none ∧ zonesOf s st ≠ [] := by
  have hstate (x : StationState) : (decide (stateOf s st = x) = true) ↔ (stcOf s st).state = x := decide_eq_true_iff
  simp only [wakeAllowed, Bool.and_eq_true, Bool.or_eq_true, Bool.not_eq_true', List.isEmpty_eq_false_iff,
    Option.isSome_iff_ne_none, hstate, and_assoc]

/-- Settles O31: the station enters PREHEAT, then its targets move. -/
theorem wakeCommand : Obligations.WakeCommand := by
  intro q sb arg st s s1 hadm hs c may ends
  have answers {status : Status} {b : Block} (h : ownWake st s1 = { status := status, body := [], after := b }) :
    ends status [] b := station_answers rfl hadm hs h
  have allowed : wakeAllowed s1 st = true ↔ may := wakeAllowed_iff
  refine ⟨fun hmay => answers ?_, fun hmay hp => answers ?_, fun i hmay hp hb hy hk => ?_⟩
  · rw [ownWake, Bool.not_eq_true (wakeAllowed s1 st) |>.mp fun h => hmay (allowed.mp h)]
    rfl
  · rw [ownWake, allowed.mpr hmay, hp]
    rfl
  intro T out
  obtain ⟨hst, ho, hz, hx⟩ := enterHeat_spec (s := s1) (st := st) hb hy
  have own : ownWake st s1 = accept (event (enterHeat st) s1) := by
    rw [ownWake, allowed.mpr hmay, hp]
    rfl
  generalize hx' : enterHeat st s1 = x at hst ho hz hx
  have htab : x.tab = s1.tab := by rw [hx]
  have he (z : Fin 32) : entryOf x z = entryOf s1 z := by rw [entryOf, htab]; rfl
  have hstate : (stcOf x st).state = .preheat := by rw [hst]
  have hy' : (stcOf s1 st).cycle = none := hy
  have hb' : (stcOf s1 st).bound = some i := hb
  have hrecipe : recipeFor x st = some (vget s1.tab.recipes i) := by
    simp only [recipeFor, hst, hy', hb', htab, Option.map_some]
  have htarget (z : Fin 32) (hz : (entryOf s1 z).station = st) : zoneTarget x z = T z := by
    have target := zoneTarget_heat (by rw [he, hz]) (by rw [hstate]; decide) (by rw [hstate]; decide) hrecipe
    rw [he] at target
    exact target
  have hout (z : Fin 32) : outAt x st z = out z :=
    outAt_of htab (fun z => by rw [hz]; exact leftOff_judged s1 st z) htarget z
  have hany : anyOut x st = (List.finRange 32).any out := by
    unfold anyOut
    rw [show outAt x st = out from funext hout]
  have hr : (stcOf x st).state ≠ .ready := by rw [hstate]; decide
  have hc : (stcOf x st).state ≠ .curing := by rw [hstate]; decide
  have hk' : noBand x st ∨ (stcOf x st).closeOk = false := by
    rcases hk with hn | hk
    · refine .inl fun z hmem => ?_
      rw [hz, (leftOff_judged s1 st z).1]
      exact hn z (by rwa [zonesOf_congr st htab] at hmem)
    · rw [hst]; exact .inr hk
  have moved := event_moved (f := enterHeat st) hx' ho (by apply permitOf_congr <;> rw [hst])
    (by rw [hstate]; rcases hmay.1 with h | h <;> rw [show (stcOf s1 st).state = _ from h] <;> decide) hr hc hk'
  have hclose : anyOut x st = true → (stcOf s1 st).closeOk = false := fun h => by
    rcases hk' with hn | hk
    · rw [anyOut_eq_false_of_noBand hn] at h; cases h
    · rw [hst] at hk; exact hk
  obtain ⟨bst, binb, bz, bo, bb⟩ := moveTargets_spec hr hc
  refine ⟨moveTargets st x, answers (by rw [own, moved]; rfl), ?_, ?_, ?_, ?_, ?_⟩
  · rw [bst, hst, ← hany]
    cases ha : anyOut x st
    · simp [c]
    · simp [c, hclose ha]
  · intro z; rw [binb, hout, hst]
  · rw [bo, ho]
  · intro z
    rw [bz, hout, hz]
    unfold leftOff
    dsimp only
    split <;> rfl
  · rw [bb]
    generalize moveTargets st x = m
    rw [hx]

end Sys2Proof.Machine
end

section
/-! PROOFS. The station commands STANDBY and OFF (R64), with the zones that enter OFF with their station (R89). -/

namespace Sys2Proof.Machine

open Sys2Proof

/-! ### The posting of a zone's duty (R97) -/

/-- The control queue with a duty of `g` posted for a zone, while OUT is UP. -/
def withDuty (s : Block) (z : Fin 32) (g : Nat) : List ControlFrame :=
  if s.rpu.outPort.link = .up then
    putDrive (enabledNodes s) (entryOf s z).driveNode (entryOf s z).driveChannel g s.rpu.controlQ
  else s.rpu.controlQ

theorem postDuty_eq (z : Fin 32) (s : Block) :
    postDuty z s = { s with rpu := { s.rpu with controlQ := withDuty s z (zoneOf s z).g } } := by
  unfold postDuty postControl withDuty
  by_cases h : s.rpu.outPort.link = .up
  · have hup : outUp s = true := decide_eq_true h
    dsimp only
    rw [if_pos hup, if_pos h]
  · have hdown : outUp s ≠ true := fun hup => h (of_decide_eq_true hup)
    dsimp only
    rw [if_neg hdown, if_neg h]

theorem setBit_setBit (v : BitVec 23) (k : Nat) (on on' : Bool) : setBit (setBit v k on) k on' = setBit v k on' := by
  apply BitVec.eq_of_getLsbD_eq
  intro j hj
  rw [setBit_getLsbD _ _ _ _ hj, setBit_getLsbD _ _ _ _ hj, setBit_getLsbD _ _ _ _ hj]
  split <;> rfl

theorem setBit_of_bit {v : BitVec 23} {k : Nat} {on : Bool} (h : v.getLsbD k = on) : setBit v k on = v := by
  apply BitVec.eq_of_getLsbD_eq
  intro j hj
  rw [setBit_getLsbD _ _ _ _ hj]
  split
  · next heq => rw [heq, h]
  · rfl

/-- A level that does not rise latches nothing. -/
theorem setLevel_of_no_rise {c : Cond} {on : Bool} {s : Block} (h : on = true → s.cdu.present.getLsbD (condNum c) = true) :
    setLevel c on s = { s with cdu := { s.cdu with present := setBit s.cdu.present (condNum c) on } } := by
  rw [setLevel_spec]
  cases on
  · rfl
  · simp [h rfl]

/-! ### One zone enters OFF (R89) -/

/-- A station at rest: in OFF, with settle timer and heat-ready down and CLOSE_OK clear. -/
def atRest (c : Stc) : Prop := c.state = .off ∧ c.settle = none ∧ c.heatReady = false ∧ c.closeOk = false

/-- A zone after it entered OFF. -/
def offedZone (c : Zone) : Zone := { offZone c with inBand := false }

/-- A zone that takes part: neither DISABLED nor in OFF. -/
def atWork (c : Zone) : Prop := c.state ≠ .disabled ∧ c.state ≠ .off

/-- A zone of a station at rest before HEAT_FAULT is judged. -/
def restedZone (z : Fin 32) (st : Station) (s : Block) : Block :=
  modStc st (fun c => { c with inBand := if (zoneOf s z).inBand = true then vset c.inBand z false else c.inBand })
    { s with
      zrg := { s.zrg with zones := vset s.zrg.zones z (offedZone (zoneOf s z)) }
      pwa := { s.pwa with allowance := vset s.pwa.allowance z 0 }
      rpu := { s.rpu with controlQ := withDuty s z 0 } }

section Off

variable {s : Block} {st : Station} {z : Fin 32}

theorem enterOff_eq (hz : (entryOf s z).station = st) (hw : atWork (zoneOf s z)) (hrest : atRest (stcOf s st)) :
    enterOff z s = judgeHeatFault st (restedZone z st s) := by
  have acts : enterOff z s = judgeHeatFault (entryOf s z).station
      (setBand z false (postDuty z (dropAllowance z (modZone z offZone s)))) := by
    obtain ⟨hd, ho⟩ := hw
    unfold enterOff
    split
    · rfl
    · rfl
    · rfl
    · next h1 h2 h3 => cases h : (zoneOf s z).state <;> simp_all
  rw [acts, hz]
  congr 1
  let x := dropAllowance z (modZone z offZone s)
  have hx : zoneOf x z = offZone (zoneOf s z) := zoneOf_modZone_self s z offZone
  have hpost := postDuty_eq z x
  rw [hx] at hpost
  change setBand z false (postDuty z x) = _
  generalize postDuty z x = y at hpost
  have hy : stcOf y st = stcOf s st := by rw [hpost]; rfl
  have hyz : zoneOf y z = offZone (zoneOf s z) := by rw [hpost]; exact hx
  obtain ⟨hstate, hsettle, hheat, hclose⟩ := hrest
  unfold restedZone
  by_cases hin : (zoneOf s z).inBand = true
  · rw [setBand_false z y st (by rw [hpost]; exact hz) (by rw [hyz]; exact hin) (by rw [hy, hstate]; decide)
      (by rw [hy, hstate]; decide)]
    rw [modStc_congr st _ (fun c => { c with inBand := vset c.inBand z false }) _ (by
      have hsame : stcOf (modZone z (fun c => { c with inBand := false }) y) st = stcOf s st := hy
      rw [hsame]
      simp only [hsettle, hheat, hclose])]
    simp only [hin, if_true]
    rw [hpost]
    have zones : vset (vset s.zrg.zones z (offZone (zoneOf s z))) z
        { vget (vset s.zrg.zones z (offZone (zoneOf s z))) z with inBand := false } =
        vset s.zrg.zones z (offedZone (zoneOf s z)) := by
      rw [vset_vset, vget_vset_self]
      rfl
    rw [← zones]
    rfl
  · have hin : (zoneOf s z).inBand = false := by simpa using hin
    have hoffed : offedZone (zoneOf s z) = offZone (zoneOf s z) := by
      unfold offedZone offZone
      rw [hin]
    have hyin : (zoneOf y z).inBand = false := by rw [hyz]; exact hin
    unfold setBand
    rw [if_pos hyin, hpost, hoffed]
    simp only [hin, Bool.false_eq_true, if_false]
    rw [modStc_of_fixed (by rfl)]
    rfl

theorem stcOf_restedZone : stcOf (restedZone z st s) st = { stcOf s st with
    inBand := if (zoneOf s z).inBand = true then vset (stcOf s st).inBand z false else (stcOf s st).inBand } := by
  unfold restedZone
  rw [stcOf_modStc_self]
  rfl

theorem stcOf_restedZone_other : stcOf (restedZone z st s) (otherStation st) = stcOf s (otherStation st) := by
  unfold restedZone
  rw [stcOf_modStc_other]
  rfl

theorem zoneOf_restedZone (w : Fin 32) :
    zoneOf (restedZone z st s) w = if z = w then offedZone (zoneOf s z) else zoneOf s w := by
  unfold restedZone
  rw [zoneOf_modStc]
  exact vget_vset _ _ _ _

/-- Some other zone of the station is in FAULT as before, where a zone of it enters OFF. -/
theorem anyFault_restedZone : anyFault (restedZone z st s) st = true → anyFault s st = true := by
  unfold anyFault
  rw [List.any_eq_true, List.any_eq_true]
  rintro ⟨w, hmem, hw⟩
  refine ⟨w, hmem, ?_⟩
  rw [zoneOf_restedZone] at hw
  split at hw
  · exact absurd (of_decide_eq_true hw) (by simp [offedZone, offZone])
  · exact hw

/-- The zones of a station at rest enter OFF one after another. -/
theorem enterOff_foldl (l : List (Fin 32)) (hl : l.Nodup) (s : Block) (st : Station)
    (hmem : ∀ z ∈ l, (entryOf s z).station = st ∧ atWork (zoneOf s z)) (hrest : atRest (stcOf s st))
    (hbit : s.cdu.present.getLsbD (condNum (.heatFault st)) = anyFault s st) :
    let b := l.foldl (fun s z => enterOff z s) s
    stcOf b st = { stcOf s st with inBand := (stcOf b st).inBand } ∧
    (∀ z, vget (stcOf b st).inBand z = if z ∈ l ∧ (zoneOf s z).inBand = true then false else vget (stcOf s st).inBand z) ∧
    stcOf b (otherStation st) = stcOf s (otherStation st) ∧
    (∀ z, zoneOf b z = if z ∈ l then offedZone (zoneOf s z) else zoneOf s z) ∧
    (∀ z, vget b.pwa.allowance z = if z ∈ l then 0 else vget s.pwa.allowance z) ∧
    b = { s with
      stc := b.stc, zrg := { s.zrg with zones := b.zrg.zones }, pwa := { s.pwa with allowance := b.pwa.allowance }
      rpu := { s.rpu with
        controlQ := if s.rpu.outPort.link = .up then
            l.foldl (fun cq z => putDrive (enabledNodes s) (entryOf s z).driveNode (entryOf s z).driveChannel 0 cq)
              s.rpu.controlQ
          else s.rpu.controlQ }
      cdu := { s.cdu with present := setBit s.cdu.present (condNum (.heatFault st)) (anyFault b st) } } := by
  induction l generalizing s with
  | nil =>
    intro b
    refine ⟨rfl, by simp [b], rfl, by simp [b], by simp [b], ?_⟩
    rw [show b = s from rfl, setBit_of_bit hbit]
    simp
  | cons a l ih =>
    obtain ⟨hnot, hl⟩ := List.nodup_cons.mp hl
    obtain ⟨hast, haw⟩ := hmem a (by simp)
    have hstep : enterOff a s = { restedZone a st s with cdu := { s.cdu with
        present := setBit s.cdu.present (condNum (.heatFault st)) (anyFault (restedZone a st s) st) } } := by
      rw [enterOff_eq hast haw hrest, judgeHeatFault, setLevel_of_no_rise]
      · rfl
      · intro h
        exact hbit.trans (anyFault_restedZone h)
    generalize hy : enterOff a s = y at hstep
    have hyst : stcOf y st = { stcOf s st with inBand :=
          if (zoneOf s a).inBand = true then vset (stcOf s st).inBand a false else (stcOf s st).inBand } := by
      rw [hstep, ← stcOf_restedZone]
      rfl
    have hyz (w : Fin 32) : zoneOf y w = if a = w then offedZone (zoneOf s a) else zoneOf s w := by
      rw [hstep, ← zoneOf_restedZone (st := st)]
      rfl
    have hytab : y.tab = s.tab := by rw [hstep]; rfl
    have hyo : stcOf y (otherStation st) = stcOf s (otherStation st) := by
      rw [hstep]
      exact stcOf_restedZone_other
    have hbit' : y.cdu.present.getLsbD (condNum (.heatFault st)) = anyFault y st := by
      rw [hstep]
      exact (setBit_getLsbD _ _ _ _ (condNum_lt _)).trans (if_pos rfl)
    obtain ⟨bst, binb, bo, bz, ba, bb⟩ := ih hl y
      (fun z hz => by
        have hne : a ≠ z := fun h => hnot (h ▸ hz)
        rw [hyz, if_neg hne, entryOf, hytab]
        exact hmem z (List.mem_cons_of_mem a hz))
      (by unfold atRest; rw [hyst]; exact hrest) hbit'
    intro b
    have hb : b = l.foldl (fun s z => enterOff z s) y := by rw [← hy]; rfl
    rw [← hb] at bst binb bo bz ba bb
    refine ⟨?_, fun w => ?_, bo.trans hyo, fun w => ?_, fun w => ?_, ?_⟩
    · rw [bst, hyst]
    · rw [binb, hyst, hyz]
      by_cases haw : a = w
      · subst haw
        cases (zoneOf s a).inBand <;> simp [hnot]
      · cases h : (zoneOf s a).inBand <;> simp [haw, Ne.symm haw, vget_vset]
    · rw [bz, hyz]
      by_cases haw : a = w
      · subst haw
        simp [hnot]
      · simp [haw, Ne.symm haw]
    · rw [ba, hstep]
      show (if w ∈ l then 0 else vget (vset s.pwa.allowance a 0) w) = _
      by_cases haw : a = w
      · subst haw
        simp
      · simp [vget_vset, haw, Ne.symm haw]
    · refine bb.trans ?_
      clear_value b
      rw [hstep]
      have queue : (if s.rpu.outPort.link = .up then
          l.foldl (fun cq z => putDrive (enabledNodes s) (entryOf s z).driveNode (entryOf s z).driveChannel 0 cq)
            (withDuty s a 0) else withDuty s a 0) = if s.rpu.outPort.link = .up then
          (a :: l).foldl (fun cq z => putDrive (enabledNodes s) (entryOf s z).driveNode (entryOf s z).driveChannel 0 cq)
            s.rpu.controlQ else s.rpu.controlQ := by
        unfold withDuty
        by_cases hup : s.rpu.outPort.link = .up <;> simp [hup]
      rw [← queue, ← setBit_setBit s.cdu.present _ (anyFault (restedZone a st s) st) (anyFault b st)]
      rfl

end Off

/-! ### STANDBY and OFF (R64) -/

/-- The station's context by an accepted STANDBY or OFF, before any zone reports. -/
def coldStc (x : StationState) (c : Stc) : Stc :=
  { c with state := x, deferredWake := false, heatReady := false, settle := none, noCycle := .none }

section Cold

variable {s : Block} {st : Station}

theorem enterCold_eq (x : StationState) : enterCold st x s =
    { modStc st (coldStc x) s with
      cdu := { s.cdu with present := s.cdu.present &&& ~~~(1#23 <<< (5 * stationNum st + 3)) } } := by
  unfold enterCold
  rw [setNoCycle_none, modStc_modStc]
  rfl

/-- An accepted STANDBY before any target moves. -/
theorem goStandby_spec :
    let x := goStandby st s
    stcOf x st = coldStc .standby (stcOf s st) ∧ stcOf x (otherStation st) = stcOf s (otherStation st) ∧
    (∀ z, zoneOf x z = leftOff s st z) ∧
    x = { s with
      stc := x.stc, zrg := { s.zrg with zones := x.zrg.zones }
      cdu := { s.cdu with present := s.cdu.present &&& ~~~(1#23 <<< (5 * stationNum st + 3)) } } := by
  intro x
  have hx : x = followFrom (stcOf s st).state st (enterCold st .standby s) := rfl
  have hw := enterCold_eq (s := s) (st := st) .standby
  generalize enterCold st .standby s = w at hw hx
  obtain ⟨hf, hz⟩ := followFrom_spec (s := s) (x := w) (st := st) (by rw [hw]; rfl) (by rw [hw]; rfl)
  rw [← hx] at hf hz
  refine ⟨?_, ?_, hz, ?_⟩
  · rw [hf]
    show stcOf w st = _
    rw [hw]
    exact stcOf_modStc_self s st _
  · rw [hf]
    show stcOf w (otherStation st) = _
    rw [hw]
    exact stcOf_modStc_other s st _
  · rw [hf, hw]
    rfl

/-- An accepted OFF of a station whose zones all take part. -/
theorem goOff_spec (hclose : (stcOf s st).closeOk = false)
    (hbit : s.cdu.present.getLsbD (condNum (.heatFault st)) = anyFault s st)
    (hwork : ∀ z ∈ zonesOf s st, atWork (zoneOf s z)) :
    let x := goOff st s
    stcOf x st = { coldStc .off (stcOf s st) with inBand := (stcOf x st).inBand } ∧
    (∀ z, vget (stcOf x st).inBand z =
      if z ∈ zonesOf s st ∧ (zoneOf s z).inBand = true then false else vget (stcOf s st).inBand z) ∧
    stcOf x (otherStation st) = stcOf s (otherStation st) ∧
    (∀ z, zoneOf x z = if z ∈ zonesOf s st then offedZone (zoneOf s z) else zoneOf s z) ∧
    (∀ z, vget x.pwa.allowance z = if z ∈ zonesOf s st then 0 else vget s.pwa.allowance z) ∧
    x = { s with
      stc := x.stc, zrg := { s.zrg with zones := x.zrg.zones }, pwa := { s.pwa with allowance := x.pwa.allowance }
      rpu := { s.rpu with
        controlQ := if s.rpu.outPort.link = .up then
            (zonesOf s st).foldl (fun cq z =>
              putDrive (enabledNodes s) (entryOf s z).driveNode (entryOf s z).driveChannel 0 cq) s.rpu.controlQ
          else s.rpu.controlQ }
      cdu := { s.cdu with present := s.cdu.present &&& ~~~(1#23 <<< (5 * stationNum st + 3)) &&&
        ~~~(1#23 <<< (5 * stationNum st + 2)) } } := by
  intro x
  have hw := enterCold_eq (s := s) (st := st) .off
  have hx : x = (zonesOf (enterCold st .off s) st).foldl (fun s z => enterOff z s) (enterCold st .off s) := rfl
  generalize enterCold st .off s = w at hw hx
  have htab : w.tab = s.tab := by rw [hw]; rfl
  have hwst : stcOf w st = coldStc .off (stcOf s st) := by rw [hw]; exact stcOf_modStc_self s st _
  have hwo : stcOf w (otherStation st) = stcOf s (otherStation st) := by rw [hw]; exact stcOf_modStc_other s st _
  have hwz (z : Fin 32) : zoneOf w z = zoneOf s z := by rw [hw]; rfl
  have fault : anyFault w st = anyFault s st := by
    unfold anyFault
    simp only [zonesOf_congr st htab, hwz]
  obtain ⟨bst, binb, bo, bz, ba, bb⟩ := enterOff_foldl (zonesOf w st) (zonesOf_nodup w st) w st
    (fun z hz => by
      rw [hwz]
      rw [zonesOf_congr st htab] at hz
      exact ⟨by rw [entryOf, htab]; exact ((mem_zonesOf s st z).mp hz).2, hwork z hz⟩)
    (by rw [hwst]; exact ⟨rfl, rfl, rfl, hclose⟩)
    (by
      rw [fault, ← hbit, hw]
      show (setBit s.cdu.present (condNum (.noCycle st)) false).getLsbD (condNum (.heatFault st)) = _
      rw [setBit_getLsbD _ _ _ _ (condNum_lt _), if_neg (by cases st <;> decide)])
  rw [← hx] at bst binb bo bz ba bb
  rw [zonesOf_congr st htab] at binb bz ba bb
  have none_left : anyFault x st = false := by
    unfold anyFault
    rw [List.any_eq_false]
    intro z hz
    have hmem : z ∈ zonesOf s st := by
      rwa [zonesOf_congr st ((congrArg Block.tab bb).trans htab)] at hz
    rw [bz, if_pos hmem]
    simp [offedZone, offZone]
  refine ⟨?_, ?_, ?_, ?_, ?_, ?_⟩
  · rw [bst, hwst]
  · intro z; rw [binb, hwz, hwst]; rfl
  · rw [bo, hwo]
  · intro z; rw [bz, hwz]
  · intro z; rw [ba, hw]; rfl
  · refine bb.trans ?_
    clear_value x
    rw [none_left, hw]
    rfl

end Cold

/-- Settles O32: STANDBY is a move of the targets, OFF takes each zone into OFF. -/
theorem standbyAndOff : Obligations.StandbyAndOff := by
  intro q sb arg st s s1 hs c drop heat ncyc
  have standbyAnswers {status : Status} {b : Block} (hadm : admitted (stationRequest q sb 3 arg) s.toBlock s1)
      (h : ownStandby st s1 = { status := status, body := [], after := b }) :
      answered (.standby q sb arg) s q 0x04 status [] b := station_answers rfl hadm hs h
  have offAnswers {status : Status} {b : Block} (hadm : admitted (stationRequest q sb 4 arg) s.toBlock s1)
      (h : ownOff st s1 = { status := status, body := [], after := b }) :
      answered (.off q sb arg) s q 0x04 status [] b := station_answers rfl hadm hs h
  have hstate : stateOf s1 st = c.state := rfl
  refine ⟨fun hadm => ⟨fun hc => standbyAnswers hadm ?_, fun hc => standbyAnswers hadm ?_, fun hc hk hy => ?_⟩,
    fun hadm => ⟨fun hc => offAnswers hadm ?_, fun hc => offAnswers hadm ?_, fun hc hk hbit hwork => ?_⟩⟩
  · rw [ownStandby, hstate, hc]
    rfl
  · rw [ownStandby, hstate]
    cases h : c.state <;> rw [h] at hc <;> first | rfl | cases hc
  · intro out
    obtain ⟨hst, ho, hz, hx⟩ := goStandby_spec (s := s1) (st := st)
    have own : ownStandby st s1 = accept (event (goStandby st) s1) := by
      rw [ownStandby, hstate]
      rcases hc with h | h | h <;> rw [h]
    generalize hx' : goStandby st s1 = x at hst ho hz hx
    have htab : x.tab = s1.tab := by rw [hx]
    have hstandby : (stcOf x st).state = .standby := by rw [hst]; rfl
    have hout (z : Fin 32) : outAt x st z = out z :=
      outAt_of htab (fun z => by rw [hz]; exact leftOff_judged s1 st z) (fun z hmem => by
        have he : entryOf x z = entryOf s1 z := by rw [entryOf, htab]; rfl
        rw [zoneTarget_cold (by rw [he]; exact hmem) (.inr hstandby), he]) z
    have hr : (stcOf x st).state ≠ .ready := by rw [hstandby]; decide
    have hcu : (stcOf x st).state ≠ .curing := by rw [hstandby]; decide
    have moved := event_moved (f := goStandby st) hx' ho (by apply permitOf_congr <;> rw [hst] <;> rfl)
      (by rw [hstandby]; rcases hc with h | h | h <;> rw [show (stcOf s1 st).state = _ from h] <;> decide) hr hcu
      (.inr (by rw [hst]; exact hk))
    obtain ⟨bst, binb, bz, bo, bb⟩ := moveTargets_spec hr hcu
    refine ⟨moveTargets st x, standbyAnswers hadm (by rw [own, moved]; rfl), ?_, ?_, ?_, ?_, ?_⟩
    · rw [bst, hst]
      have hk' : (stcOf s1 st).closeOk = false := hk
      cases anyOut x st <;> simp [coldStc, c, hk']
    · intro z; rw [binb, hout, hst]; rfl
    · rw [bo, ho]
    · intro z
      rw [bz, hout, hz]
      unfold leftOff
      dsimp only
      split <;> rfl
    · refine bb.trans ?_
      generalize moveTargets st x = m
      rw [hx]
  · rw [ownOff, hstate, hc]
    rfl
  · rw [ownOff, hstate]
    cases h : c.state <;> rw [h] at hc <;> first | rfl | cases hc
  · have hbit' : s1.cdu.present.getLsbD (condNum (.heatFault st)) = anyFault s1 st := by
      have hno : anyFault s1 st = false ↔ ∀ z ∈ zonesOf s1 st, (zoneOf s1 z).state ≠ .fault := by
        simp only [anyFault, List.any_eq_false, decide_eq_true_eq, ne_eq]
      have hzero := and_condBit_eq_zero s1.cdu.present _ (condNum_lt (.heatFault st))
      have hiff : s1.cdu.present.getLsbD (condNum (.heatFault st)) = false ↔ anyFault s1 st = false :=
        hzero.symm.trans (hbit.trans hno.symm)
      cases h : anyFault s1 st
      · exact hiff.mpr h
      · cases h' : s1.cdu.present.getLsbD (condNum (.heatFault st))
        · rw [hiff.mp h'] at h; cases h
        · rfl
    obtain ⟨hst, hin, ho, hz, ha, hx⟩ := goOff_spec (s := s1) (st := st) hk hbit' hwork
    have own : ownOff st s1 = accept (event (goOff st) s1) := by
      rw [ownOff, hstate]
      rcases hc with h | h | h <;> rw [h]
    generalize hx' : goOff st s1 = x at hst hin ho hz ha hx
    have hoff : (stcOf x st).state = .off := by rw [hst]; rfl
    have band : noBand x st := fun z hmem => by
      have htab : x.tab = s1.tab := by rw [hx]
      rw [zonesOf_congr st htab] at hmem
      rw [hz, if_pos hmem]
      rfl
    have moved := event_moved (f := goOff st) hx' ho (by apply permitOf_congr <;> rw [hst] <;> rfl)
      (by rw [hoff]; rcases hc with h | h | h <;> rw [show (stcOf s1 st).state = _ from h] <;> decide)
      (by rw [hoff]; decide) (by rw [hoff]; decide) (.inl band)
    rw [moveTargets_targetsHeld x st fun z hmem h => by rw [band z hmem] at h; cases h] at moved
    refine ⟨x, offAnswers hadm (by rw [own, moved]; rfl), hst, fun z hmem h => ?_, fun z h => ?_, ho, hz, ha, hx⟩
    · rw [hin, if_pos ⟨hmem, h⟩]
    · rw [hin, if_neg (by rintro ⟨hmem, hb⟩; rcases h with h | h; exacts [h hmem, by rw [h] at hb; cases hb])]

end Sys2Proof.Machine
end

section
/-! PROOFS. ZONE_RECOVER (R104), BLIND_HOLD_EXPIRY (R101), SETTLE_TIMER_EXPIRY (R67) and PERMIT_REFRESH_EXPIRY (R84). -/

namespace Sys2Proof.Machine

open Sys2Proof

theorem station_cases {P : Station → Prop} (st : Station) (h : P st) (h' : P (otherStation st)) (x : Station) : P x := by
  cases x <;> cases st <;> assumption

/-! ### A timer of the part ends (log 2) -/

theorem finish_stopped {t : Block → Timer} {act : Block → Block} {s : State} (h : t s.toBlock = none) :
    finish (whenRunning t act) s = .next (s.closing s.toBlock) :=
  finish_eq (by rw [whenRunning, h]; rfl)

theorem finish_running {t : Block → Timer} {act : Block → Block} {s : State} {x : Block} (h : t s.toBlock ≠ none)
    (hx : event act s.toBlock = x) : finish (whenRunning t act) s = .next (s.closing x) :=
  finish_eq (by rw [whenRunning, if_pos (Option.isSome_iff_ne_none.mpr h), hx])

/-! ### ZONE_RECOVER (R104) -/

section Recover

variable {s : Block} {z : Fin 32}

/-- The zone's context by a switch of its selected slot (R93, R94). -/
def switchedZone (e : ZoneEntry) (c : Zone) : Zone := restartWindow e { c with slot := otherSlot c.slot }

/-- The zone's context by an accepted recovery. -/
def recoveredZone (pv : Int) (c : Zone) : Zone := { c with state := .regulating, cause := .none, iq := 0, r := 0, wsp := pv }

theorem switchSlot_of_not_curing (h : (stcOf s (entryOf s z).station).state ≠ .curing) :
    switchSlot z s = modZone z (switchedZone (entryOf s z)) s := if_neg h

theorem switchSlot_of_curing {cy : Cycle} {i : Fin 48} {r : Record}
    (h : (stcOf s (entryOf s z).station).state = .curing) (hc : (stcOf s (entryOf s z).station).cycle = some cy)
    (ho : openIn s i cy.record r) :
    switchSlot z s = modZone z (switchedZone (entryOf s z)) (writes i { r with flags := r.flags ||| (1#16 <<< 9) } s) := by
  have flagged := setFlag_writes (s := modZone z (switchedZone (entryOf s z)) s) hc (openIn_congr ho rfl) .sensorSwitched
  exact (if_pos h).trans flagged

theorem switchSlot_stc (z : Fin 32) (s : Block) : (switchSlot z s).stc = s.stc := by
  unfold switchSlot
  dsimp only
  split
  · exact modOpenRecord_stc _ _ _
  · rfl

theorem recoverZone_stc (z : Fin 32) (s : Block) : (recoverZone z s).2.stc = s.stc := by
  have selected : (if slotFresh s z (zoneOf s z).slot = true then s else switchSlot z s).stc = s.stc := by
    split
    · rfl
    · exact switchSlot_stc z s
  unfold recoverZone
  dsimp only
  split
  · rfl
  split
  · rfl
  generalize (if slotFresh s z (zoneOf s z).slot = true then s else switchSlot z s) = y at selected ⊢
  split
  · exact selected
  · rw [← selected]
    unfold judgeHeatFault
    rw [setLevel_spec]
    rfl

/-- A zone in FAULT with a FRESH slot: the switch, then the test of the PV. -/
theorem recoverZone_eq {y : Block} {pv : Int} (hf : (zoneOf s z).state = .fault)
    (hfresh : slotFresh s z .zero = true ∨ slotFresh s z .one = true)
    (hy : (if slotFresh s z (zoneOf s z).slot = true then s else switchSlot z s) = y) (hpv : pvOf y z = pv) :
    ((entryOf s z).overtempLimit - 50 < pv → recoverZone z s = (.notAllowed, y)) ∧
    (pv ≤ (entryOf s z).overtempLimit - 50 →
      recoverZone z s = (.ok, judgeHeatFault (entryOf s z).station (modZone z (recoveredZone pv) y))) := by
  have hslots : ¬ ((!slotFresh s z .zero && !slotFresh s z .one) = true) := by
    rcases hfresh with h | h <;> simp [h]
  unfold recoverZone
  dsimp only
  rw [if_neg (by simp [hf]), if_neg hslots, hy, hpv]
  exact ⟨fun h => if_pos h, fun h => if_neg (not_lt.mpr h)⟩

/-- After its recovery the zone's station has the faults of its other zones. -/
theorem anyFault_recovered {x : Block} {st : Station} (htab : x.tab = s.tab) (hz : (zoneOf x z).state ≠ .fault)
    (ho : ∀ w, w ≠ z → zoneOf x w = zoneOf s w) :
    anyFault x st = decide (∃ w ∈ zonesOf s st, w ≠ z ∧ (zoneOf s w).state = .fault) := by
  rw [Bool.eq_iff_iff, decide_eq_true_iff, anyFault, List.any_eq_true, zonesOf_congr st htab]
  constructor
  · rintro ⟨w, hmem, hw⟩
    have hw := of_decide_eq_true hw
    have hne : w ≠ z := fun h => hz (h ▸ hw)
    exact ⟨w, hmem, hne, by rw [← ho w hne]; exact hw⟩
  · rintro ⟨w, hmem, hne, hw⟩
    exact ⟨w, hmem, by rw [ho w hne]; exact decide_eq_true hw⟩

end Recover

/-- Settles O35: the slot that the recovery reads, the switch where it is the other one, and the test of the PV. -/
theorem zoneRecover : Obligations.ZoneRecover := by
  intro q sb arg st s s1 hadm hs ends
  refine ⟨fun harg => ?_, fun z harg => ?_⟩
  · refine station_answers rfl hadm hs ?_
    have hi : zoneIndexOf arg.toNat = none := dif_neg (by omega)
    simp only [ownZoneRecover, hi]
    rfl
  have hi : zoneIndexOf arg.toNat = some z := by
    unfold zoneIndexOf; rw [dif_pos (by omega)]; exact congrArg some (Fin.ext harg)
  intro c e heat well moved
  have answers {status : Status} {b : Block} (hst : e.station = st) (h : recoverZone z s1 = (status, b)) :
      ends status [] b := by
    refine station_answers rfl hadm hs ?_
    have still := event_of_stc (fun s => (recoverZone z s).2) s1 (recoverZone_stc z s1)
    simp only [ownZoneRecover, hi]
    rw [if_neg (by rw [not_ne_iff]; exact hst), still, h]
  have recovers {y : Block} {pv : Int} (hst : e.station = st) (hf : c.state = .fault)
      (hfresh : slotFresh s1 z .zero = true ∨ slotFresh s1 z .one = true)
      (hy : (if slotFresh s1 z c.slot = true then s1 else switchSlot z s1) = y) (hpv : pvOf y z = pv)
      (htab : y.tab = s1.tab) (ho : ∀ w, w ≠ z → zoneOf y w = zoneOf s1 w) :
      ((e.overtempLimit : Int) - 50 < pv → ends .notAllowed [] y) ∧
      (pv ≤ (e.overtempLimit : Int) - 50 → ends .ok [] (heat (modZone z (well pv) y))) := by
    obtain ⟨hot, cool⟩ := recoverZone_eq hf hfresh hy hpv
    refine ⟨fun h => answers hst (hot h), fun h => answers hst ((cool h).trans ?_)⟩
    have faults := anyFault_recovered (s := s1) (z := z) (x := modZone z (recoveredZone pv) y) (st := st) htab
      (by rw [zoneOf_modZone_self]; simp [recoveredZone])
      (fun w hw => by rw [zoneOf_modZone, if_neg (Ne.symm hw), ho w hw])
    rw [show (entryOf s1 z).station = st from hst, judgeHeatFault, faults]
    rfl
  refine ⟨fun hst => ?_, fun hst hf => answers hst ?_, fun hst hf h0 h1 => answers hst ?_, fun hst hf hsel => ?_,
    fun hst hf hsel hother => ?_⟩
  · refine station_answers rfl hadm hs ?_
    simp only [ownZoneRecover, hi]
    exact if_pos hst
  · unfold recoverZone
    exact if_pos hf
  · unfold recoverZone
    dsimp only
    rw [if_neg (by simp [show (zoneOf s1 z).state = .fault from hf]), if_pos (by simp [h0, h1])]
  · have hfresh : slotFresh s1 z .zero = true ∨ slotFresh s1 z .one = true := by
      cases h : c.slot <;> rw [h] at hsel
      · exact .inl hsel
      · exact .inr hsel
    exact recovers hst hf hfresh (if_pos hsel) rfl rfl fun _ _ => rfl
  · intro ending
    have hfresh : slotFresh s1 z .zero = true ∨ slotFresh s1 z .one = true := by
      cases h : c.slot <;> rw [h] at hother
      · exact .inr hother
      · exact .inl hother
    have ends_of (x : Block) (htab : x.tab = s1.tab) (hzrg : x.zrg = s1.zrg)
        (hx : switchSlot z s1 = modZone z (switchedZone e) x) : ending x := by
      have hz : zoneOf x z = c := by rw [zoneOf, hzrg]; rfl
      have hsw : modZone z (switchedZone e) x = modZone z (fun _ => moved) x := by
        unfold modZone
        rw [show vget x.zrg.zones z = c from hz]
        rfl
      have hy : (if slotFresh s1 z c.slot = true then s1 else switchSlot z s1) = modZone z (fun _ => moved) x := by
        rw [if_neg (by rw [hsel]; decide), hx, hsw]
      have hpv : pvOf (modZone z (fun _ => moved) x) z = slotHeld s1 z (otherSlot c.slot) := by
        rw [pvOf, zoneOf_modZone_self]
        exact heldOf_congr htab _
      obtain ⟨hot, cool⟩ := recovers hst hf hfresh hy hpv htab fun w hw => by
        rw [zoneOf_modZone, if_neg (Ne.symm hw), zoneOf, hzrg, zoneOf]
      refine ⟨hot, fun h => ?_⟩
      have hok := cool h
      rw [modZone_modZone] at hok
      exact hok
    refine ⟨fun hcu => ?_, fun cy i r hcu hcy ho => ?_⟩
    · exact ends_of s1 rfl rfl (switchSlot_of_not_curing (by rw [show (entryOf s1 z).station = st from hst]; exact hcu))
    · have hst' : (entryOf s1 z).station = st := hst
      exact ends_of _ rfl rfl (switchSlot_of_curing (by rw [hst']; exact hcu) (by rw [hst']; exact hcy) ho)

/-! ### BLIND_HOLD_EXPIRY (R101) -/

/-- Entry into FAULT of a zone out of band, with a fault to show (R102). -/
theorem enterFault_of_out {s : Block} {z : Fin 32} {cause : ZoneCause} (hin : (zoneOf s z).inBand = false)
    (hen : (entryOf s z).enabled = true) :
    let st := (entryOf s z).station
    let x := setLevel (.heatFault st) true (postDuty z (dropAllowance z (modZone z (faultedZone cause) s)))
    enterFault z cause s = if stateOf x st = .curing then setFlag st .heatFault x else x := by
  intro st x
  have hpost := postDuty_spec z (dropAllowance z (modZone z (faultedZone cause) s))
  have hx : x = setLevel (.heatFault st) true (postDuty z (dropAllowance z (modZone z (faultedZone cause) s))) := rfl
  unfold enterFault
  dsimp only
  generalize postDuty z (dropAllowance z (modZone z (faultedZone cause) s)) = y at hpost hx
  have hyz : zoneOf y z = faultedZone cause (zoneOf s z) := by
    rw [hpost]
    exact zoneOf_modZone_self s z _
  have band : setBand z false y = y := if_pos (by rw [hyz]; exact hin)
  have htab : y.tab = s.tab := by rw [hpost]; rfl
  have fault : anyFault y st = true := by
    rw [anyFault, List.any_eq_true, zonesOf_congr st htab]
    exact ⟨z, (mem_zonesOf s st z).mpr ⟨hen, rfl⟩, by rw [hyz]; rfl⟩
  rw [band, judgeHeatFault, fault, ← hx]

theorem stc_setLevel (c : Cond) (on : Bool) (s : Block) : (setLevel c on s).stc = s.stc := by
  rw [setLevel_spec]

/-- Settles O48: the entry into FAULT of the zone, with its flag in CURING. -/
theorem blindHoldExpires : Obligations.BlindHoldExpires := by
  intro z s b0 c e faulted
  have hstc : faulted.stc = b0.stc := by
    have hf : faulted = setLevel (.heatFault e.station) true
      (postDuty z (dropAllowance z (modZone z (faultedZone .sensorLost) b0))) := rfl
    rw [hf, stc_setLevel, postDuty_spec]
    rfl
  refine ⟨fun h => ?_, fun hb hstate hin hen => ?_⟩
  · by_cases hb : c.blindHold = none
    · exact finish_stopped hb
    · have hstate := h.resolve_left hb
      exact finish_running hb ((event_of_stc _ _ (by rw [blindExpired, if_neg hstate])).trans (if_neg hstate))
  · have acts : blindExpired z b0 = enterFault z .sensorLost b0 := if_pos hstate
    have enters := enterFault_of_out (cause := .sensorLost) hin hen
    dsimp only at enters
    change enterFault z .sensorLost b0 = if stateOf faulted e.station = .curing then setFlag e.station .heatFault faulted
      else faulted at enters
    have hst (x : Station) : stcOf faulted x = stcOf b0 x := by rw [stcOf, hstc, stcOf]
    refine ⟨fun hcu => ?_, fun hcu cy i r hcy ho => ?_⟩
    · rw [if_neg (by rw [stateOf, hst]; exact hcu), ← acts] at enters
      exact finish_running hb ((event_of_stc _ _ (by rw [enters, hstc])).trans enters)
    · have slots : faulted.hst = b0.hst := by
        have hf : faulted = setLevel (.heatFault e.station) true
          (postDuty z (dropAllowance z (modZone z (faultedZone .sensorLost) b0))) := rfl
        rw [hf, setLevel_spec, postDuty_spec]
        rfl
      rw [if_pos (by rw [stateOf, hst]; exact hcu),
        setFlag_writes (by rw [hst]; exact hcy) (openIn_congr ho (by rw [slots])) .heatFault, ← acts] at enters
      refine finish_running hb (((event_of_stc _ _ ?_).trans enters).trans ?_)
      · rw [enters]; exact hstc
      · unfold writes
        rw [slots]
        rfl

/-! ### SETTLE_TIMER_EXPIRY (R67) and PERMIT_REFRESH_EXPIRY (R84) -/

section Permit

variable {s : Block} {st : Station}

/-- The control queue with the station's PERMIT frame posted, while OUT is UP. -/
def withPermit (s : Block) (st : Station) : List ControlFrame :=
  if s.rpu.outPort.link = .up then
    replaceOrJoin (isPermitOf st) (.permit st (s.tab.stations.get st).pressNode (stcOf s st).closeOk (stcOf s st).openOk
      (match (stcOf s st).cycle with
        | some cy => cy.record
        | none => 0)) s.rpu.controlQ
  else s.rpu.controlQ

theorem postPermit_eq : postPermit st s =
    { modStc st (fun c => { c with refresh := some { elapsed := 0, length := (s.tab.stations.get st).refresh } }) s with
      rpu := { s.rpu with controlQ := withPermit s st } } := by
  unfold postPermit postControl withPermit permitRecord
  by_cases h : s.rpu.outPort.link = .up
  · have hup : outUp s = true := decide_eq_true h
    dsimp only
    rw [if_pos hup, if_pos h]
    rfl
  · have hdown : outUp s ≠ true := fun hup => h (of_decide_eq_true hup)
    dsimp only
    rw [if_neg hdown, if_neg h]
    rfl

/-- The end of the settle timer leaves the station's state, but for PREHEAT. -/
theorem settleDone_of_not_preheat (h : (stcOf s st).state ≠ .preheat) : settleDone st s =
    modStc st (fun c => { c with
      settle := none, heatReady := true, closeOk := decide (c.state = .pressLoad) || c.closeOk }) s := if_neg h

theorem settleDone_of_preheat (h : (stcOf s st).state = .preheat) : settleDone st s =
    cycleOpenTest st (modStc st (fun c => { c with settle := none, heatReady := true, state := .ready }) s) := by
  refine (if_pos h).trans (congrArg (cycleOpenTest st) ?_)
  unfold setState
  rw [modStc_modStc]
  exact modStc_congr st _ _ s (by simp [h])

/-- A change of one station's context that leaves its state and permits alone is all its event does. -/
theorem event_modStc {f : Block → Block} {g : Stc → Stc} (hf : f s = modStc st g s)
    (hs : (g (stcOf s st)).state = (stcOf s st).state) (hc : (g (stcOf s st)).closeOk = (stcOf s st).closeOk)
    (ho : (g (stcOf s st)).openOk = (stcOf s st).openOk) (hy : (g (stcOf s st)).cycle = (stcOf s st).cycle) :
    event f s = modStc st g s := by
  rw [← hf]
  apply event_eq
  · intro x
    apply permitOf_congr <;> rw [hf, stcOf_modStc] <;> split
    · next h => subst h; exact hc
    · rfl
    · next h => subst h; exact ho
    · rfl
    · next h => subst h; exact hy
    · rfl
  · intro x
    rw [stateOf, hf, stcOf_modStc]
    split
    · next h => subst h; exact hs
    · rfl

/-- States other than OFF and STANDBY have the same targets. -/
theorem zoneTarget_warm {x : Block} {z : Fin 32} (htab : x.tab = s.tab) (hz : (entryOf s z).station = st)
    (hs : (stcOf s st).state ≠ .off ∧ (stcOf s st).state ≠ .standby)
    (hx : (stcOf x st).state ≠ .off ∧ (stcOf x st).state ≠ .standby)
    (hy : (stcOf x st).cycle = (stcOf s st).cycle) (hb : (stcOf x st).bound = (stcOf s st).bound) :
    zoneTarget x z = zoneTarget s z := by
  have he : entryOf x z = entryOf s z := by rw [entryOf, htab, entryOf]
  have hrecipe : recipeFor x st = recipeFor s st := by unfold recipeFor; rw [hy, hb, htab]
  have hzx : (entryOf x z).station = st := by rw [he, hz]
  cases hr : recipeFor s st with
  | some r => rw [zoneTarget_heat hz hs.1 hs.2 hr, zoneTarget_heat hzx hx.1 hx.2 (hrecipe.trans hr), he]
  | none =>
    unfold zoneTarget
    dsimp only
    rw [hz, hzx, hr, hrecipe.trans hr, he]
    cases stateOf x st <;> cases stateOf s st <;> rfl

/-- Targets that are not left to move stay so from one state with a recipe to another. -/
theorem targetsHeld_warm {x : Block} (htab : x.tab = s.tab) (hz : ∀ z, zoneOf x z = zoneOf s z)
    (hs : (stcOf s st).state ≠ .off ∧ (stcOf s st).state ≠ .standby)
    (hx : (stcOf x st).state ≠ .off ∧ (stcOf x st).state ≠ .standby)
    (hy : (stcOf x st).cycle = (stcOf s st).cycle) (hb : (stcOf x st).bound = (stcOf s st).bound)
    (h : targetsHeld s st) : targetsHeld x st := by
  intro z hmem hin
  rw [zonesOf_congr st htab] at hmem
  rw [hz] at hin ⊢
  rw [zoneTarget_warm htab ((mem_zonesOf s st z).mp hmem).2 hs hx hy hb]
  exact h z hmem hin

end Permit

/-- Settles O45: the ends of the two timers, with the posts and the test that each calls for. -/
theorem settleAndRefreshTimers : Obligations.SettleAndRefreshTimers := by
  intro st s c permit fresh
  refine ⟨fun h => finish_stopped h, fun h hp hl => finish_running h ?_, fun h hp => finish_running h ?_,
    fun h hp hprod hheld => finish_running h ?_, fun h hl hk => finish_running h ?_, fun h => finish_stopped h,
    fun h => finish_running h ?_⟩
  · have same := modStc_congr st (fun c => { c with
        settle := none, heatReady := true, closeOk := decide (c.state = .pressLoad) || c.closeOk })
      (fun c => { c with settle := none, heatReady := true }) s.toBlock (by
        have hl' : (stcOf s.toBlock st).state ≠ .pressLoad := hl
        simp [hl'])
    exact event_modStc ((settleDone_of_not_preheat hp).trans same) rfl rfl rfl rfl
  · exact event_congr (settleDone_of_preheat hp)
  · have idle : settleDone st s.toBlock =
        modStc st (fun c => { c with settle := none, heatReady := true, state := .ready }) s.toBlock := by
      rw [settleDone_of_preheat hp]
      exact cycleOpenTest_idle (.inr (by rw [stcOf_modStc_self]; exact hprod))
    have hst := stcOf_modStc_self s.toBlock st fun c => { c with settle := none, heatReady := true, state := .ready }
    have ho := stcOf_modStc_other s.toBlock st fun c => { c with settle := none, heatReady := true, state := .ready }
    rw [← idle] at hst ho ⊢
    refine event_of_targetsHeld _ _ st ho (by apply permitOf_congr <;> rw [hst]) ?_
    have hp' : (stcOf s.toBlock st).state = .preheat := hp
    refine targetsHeld_warm (s := s.toBlock) (by rw [idle]; rfl) (fun z => by rw [idle]; rfl) ?_ ?_ ?_ ?_ hheld
    · rw [hp']; decide
    · rw [hst]; exact ⟨by simp, by simp⟩
    · rw [hst]
    · rw [hst]
  · have hl' : (stcOf s.toBlock st).state = .pressLoad := hl
    have done : settleDone st s.toBlock =
        modStc st (fun c => { c with settle := none, heatReady := true, closeOk := true }) s.toBlock :=
      (settleDone_of_not_preheat (by rw [hl']; decide)).trans (modStc_congr st _ _ _ (by simp [hl']))
    have hst := stcOf_modStc_self s.toBlock st fun c => { c with settle := none, heatReady := true, closeOk := true }
    have ho := stcOf_modStc_other s.toBlock st fun c => { c with settle := none, heatReady := true, closeOk := true }
    rw [← done] at hst ho
    have kept (x : Station) : (stcOf (settleDone st s.toBlock) x).state = (stcOf s.toBlock x).state ∧
        permitRecord (settleDone st s.toBlock) x = permitRecord s.toBlock x := by
      refine station_cases (P := fun x => (stcOf (settleDone st s.toBlock) x).state = (stcOf s.toBlock x).state ∧
        permitRecord (settleDone st s.toBlock) x = permitRecord s.toBlock x) st ?_ ?_ x
      · simp only [permitRecord, hst, and_self]
      · simp only [permitRecord, ho, and_self]
    rw [event_posts fun x => .inr (kept x), (postPermits_eq _ _).2.1 st, done, postPermit_eq]
    · have permits : withPermit (modStc st (fun c => { c with settle := none, heatReady := true, closeOk := true })
          s.toBlock) st = permit s.toBlock true := by
        unfold withPermit
        rw [stcOf_modStc_self]
        rfl
      rw [permits, modStc_modStc]
      rfl
    · intro hp
      have closed := congrArg (fun x => x.1) hp
      rw [show (permitOf (settleDone st s.toBlock) st).1 = true by rw [permitOf, hst]] at closed
      exact absurd (closed.trans hk) (by decide)
    · apply permitOf_congr <;> rw [ho]
  · refine (event_eq _ _ ?_ ?_).trans ?_
    · intro x
      obtain ⟨r, hr⟩ := stcOf_postPermit s.toBlock st x
      apply permitOf_congr <;> rw [hr]
    · intro x
      obtain ⟨r, hr⟩ := stcOf_postPermit s.toBlock st x
      rw [stateOf, hr, stateOf]
    · exact postPermit_eq

end Sys2Proof.Machine
end

section
/-! PROOFS. The hand-over of records: COLLECT with its PART frames (R25, R176, R177) and RELEASE (R178, R179). -/

namespace Sys2Proof.Machine

open Sys2Proof

/-! ### The slots a RELEASE frees (R179) -/

theorem reply_stc (q : Sender) (code : Nat) (st : Status) (body : List Byte) (s : Block) :
    (reply q code st body s).stc = s.stc := by
  rw [reply, postReply_spec]

theorem modHst_rest (f : Hst → Hst) (s : Block) :
    (modHst f s).stc = s.stc ∧ (modHst f s).tab = s.tab ∧ (modHst f s).hst = f s.hst := ⟨rfl, rfl, rfl⟩

/-- A collection ends when its selection is empty, and then alone. -/
theorem endCollection_cases (s : Block) :
    (s.hst.collection = none → endCollection s = s) ∧
    (∀ c, s.hst.collection = some c → c.selection ≠ [] → endCollection s = s) ∧
    (∀ c, s.hst.collection = some c → c.selection = [] → endCollection s =
      reply c.requester 0x0F .ok (leBytes 1 c.placed ++ leBytes 4 c.first ++ leBytes 4 c.last)
        (modHst (fun h => { h with collection := none }) s)) := by
  unfold endCollection
  refine ⟨fun h => by rw [h], fun c h hs => ?_, fun c h hs => ?_⟩
  · rw [h]
    exact if_neg (by simpa using hs)
  · rw [h]
    exact if_pos (by simp [hs])

theorem endCollection_stc (s : Block) : (endCollection s).stc = s.stc := by
  unfold endCollection
  split
  · split
    · exact reply_stc _ _ _ _ _
    · rfl
  · rfl

theorem reply_hst (q : Sender) (code : Nat) (st : Status) (body : List Byte) (s : Block) :
    (reply q code st body s).hst = s.hst := by
  rw [reply, postReply_spec]

theorem endCollection_slots (s : Block) : (endCollection s).hst.slots = s.hst.slots := by
  unfold endCollection
  split
  · split
    · rw [reply_hst]
      rfl
    · rfl
  · rfl

theorem endCollection_tab (s : Block) : (endCollection s).tab = s.tab := by
  unfold endCollection
  split
  · split
    · rw [reply, postReply_spec]
      rfl
    · rfl
  · rfl

theorem vget_ofFn {α : Type} {n : Nat} (f : Fin n → α) (i : Fin n) : vget (Vector.ofFn f) i = f i := by
  simp [vget]

section Release

variable {n : Nat} {h : Hst}

/-- The records left collectable are those that were and are not freed. -/
theorem countSlots_freeSent : countSlots isCollectable (freeSent n h) =
    (allSlots.filter fun i => isCollectable (vget h.slots i) && !released n (vget h.slots i)).length := by
  unfold countSlots
  refine congrArg (fun p => (allSlots.filter p).length) (funext fun i => ?_)
  simp only [freeSent, vget_vmap]
  cases hr : released n (vget h.slots i)
  · simp
  · simp [isCollectable, isHolding]

/-- A slot is free where one was freed. -/
theorem countSlots_isFree_freeSent (hc : releaseCount n h ≠ 0) : countSlots isFree (freeSent n h) ≠ 0 := by
  obtain ⟨i, hi⟩ := countSlots_pos.mp (Nat.pos_of_ne_zero hc)
  refine Nat.pos_iff_ne_zero.mp (countSlots_pos.mpr ⟨i, ?_⟩)
  simp only [freeSent, vget_vmap, hi, if_true, isFree]

end Release

theorem stc_judgeFull (s : Block) : (judgeFull s).stc = s.stc := by rw [judgeFull, stc_setLevel]

theorem stc_judgeHigh (s : Block) : (judgeHigh s).stc = s.stc := by rw [judgeHigh, stc_setLevel]

/-- The two conditions of the store, where a slot is FREE (R181). -/
theorem judgeHigh_judgeFull {s : Block} {k : Nat} (hfull : countSlots isFree s.hst ≠ 0)
    (hhigh : countSlots isCollectable s.hst = k) :
    judgeHigh (judgeFull s) =
      setLevel .historyHigh (decide (s.tab.line.watermark ≤ k)) (setLevel .historyFull false s) := by
  have hx : judgeFull s = setLevel .historyFull false s := by rw [judgeFull, decide_eq_false hfull]
  have htab : (setLevel .historyFull false s).tab = s.tab := by rw [setLevel_spec]
  have hhst : (setLevel .historyFull false s).hst = s.hst := by rw [setLevel_spec]
  rw [judgeHigh, hx, htab, hhst, hhigh]

/-- Settles O41: the freed slots, the collection they may empty, and the conditions judged where any was freed. -/
theorem releaseRecords : Obligations.ReleaseRecords := by
  intro q b0 b1 b2 b3 s s1 hadm n gone freed numbers left kept emptied ended judged ends
  have hn : field [b0, b1, b2, b3] 0 4 = n := field_four b0 b1 b2 b3 []
  have hgone : gone = released n := funext fun sl => by
    cases sl with
    | free => rfl
    | held g r => cases g <;> rfl
  have hcount : releaseCount n s1.hst = freed.length := by
    unfold releaseCount countSlots
    rw [← hgone]
  have hfreed (collection : Option Collection) (hc : (freeSent n s1.hst).collection = collection) :
      modHst (freeSent n) s1 = emptied collection := by
    have slots : vmap (fun sl => if released n sl = true then .free else sl) s1.hst.slots =
        Vector.ofFn fun i => if gone (vget s1.hst.slots i) = true then .free else vget s1.hst.slots i := by
      apply vget_ext
      intro i
      rw [vget_vmap, vget_ofFn, hgone]
    unfold modHst
    rw [show freeSent n s1.hst = { freeSent n s1.hst with collection := collection } by rw [← hc]]
    unfold freeSent
    rw [slots, ← hgone]
  have hended : endCollection (modHst (freeSent n) s1) = ended := by
    obtain ⟨hnone, hleft, hempty⟩ := endCollection_cases (modHst (freeSent n) s1)
    cases hc : s1.hst.collection with
    | none =>
      have hn : (freeSent n s1.hst).collection = none := by simp only [freeSent, hc, Option.map_none]
      rw [hnone hn, hfreed _ hn]
      simp only [ended, hc]
    | some c =>
      have hkept : (freeSent n s1.hst).collection = some { c with selection := kept c } := by
        simp only [freeSent, hc, Option.map_some, kept, numbers, freed, hgone]
      by_cases hk : kept c = []
      · rw [hempty _ hkept hk, hfreed _ hkept]
        simp only [ended, hc, hk, if_true]
        rfl
      · rw [hleft _ hkept hk, hfreed _ hkept]
        simp only [ended, hc, hk, if_false]
  have hstc : ended.stc = s1.stc := by rw [← hended, endCollection_stc, (modHst_rest _ s1).1]
  have effect : releaseEffect n s1 = if freed.length = 0 then ended else testStations (judgeHigh (judgeFull ended)) := by
    rw [releaseEffect, hended, hcount]
  have hjudged (hf : freed ≠ []) : judgeHigh (judgeFull ended) = judged := by
    have slots : ended.hst.slots = (freeSent n s1.hst).slots := by
      rw [← hended, endCollection_slots, (modHst_rest _ s1).2.2]
    have full : countSlots isFree ended.hst ≠ 0 := by
      have h := countSlots_isFree_freeSent (n := n) (h := s1.hst) (by rw [hcount]; simpa using hf)
      unfold countSlots at h ⊢
      rwa [slots]
    have high : countSlots isCollectable ended.hst = left.length := by
      have h := countSlots_freeSent (n := n) (h := s1.hst)
      rw [← hgone] at h
      unfold countSlots at h ⊢
      rw [slots, h]
    have htab : ended.tab = s1.tab := by rw [← hended, endCollection_tab, (modHst_rest _ s1).2.1]
    rw [judgeHigh_judgeFull full high, htab]
  have hends {x : Block} (h : event (releaseEffect n) s1 = x) : ends x := by
    have answers : ends (event (releaseEffect n) s1) := by
      have hown : ownReleaseRecords [b0, b1, b2, b3] s1 =
          { status := .ok, body := [BitVec.ofNat 8 freed.length], after := event (releaseEffect n) s1 } := by
        unfold ownReleaseRecords
        dsimp only
        rw [hn, hcount]
        rfl
      have h := finish_serve_admitted (owner := ownReleaseRecords [b0, b1, b2, b3]) (code := codeRelease) (q := q) hadm rfl
      rw [hown] at h
      exact h
    rwa [h] at answers
  refine ⟨fun hf => hends ?_, fun hf => ?_, fun hf hp hn => ?_⟩
  · rw [hf] at effect
    rw [← show releaseEffect n s1 = ended from effect]
    exact event_of_stc _ _ (by rw [effect]; exact hstc)
  · have hne : freed.length ≠ 0 := by simpa using hf
    rw [if_neg hne, hjudged hf] at effect
    exact hends (event_congr effect)
  · have hne : freed.length ≠ 0 := by simpa using hf
    rw [if_neg hne, hjudged hf] at effect
    refine hends ((event_congr (g := fun _ => testStations judged) effect).trans (event_testStations_idle ?_ hp hn))
    rw [← hjudged hf, stc_judgeHigh, stc_judgeFull, hstc]

/-! ### PART frames (R25, R177) -/

section Collect

variable {s : Block}

/-- What keeps every PART frame out of the info queue (R18). -/
theorem not_partMayJoin_iff : partMayJoin s = false ↔
    12 ≤ s.rpu.infoQ.length ∨ (s.cdu.gateOpen = true ∧ s.cdu.latched &&& ~~~s.cdu.mask ≠ 0) := by
  rw [← Bool.not_eq_true, partMayJoin_iff, not_not]

theorem offerParts_of_denied (fuel : Nat) (h : partMayJoin s = false) : offerParts fuel s = s := by
  cases fuel with
  | zero => rfl
  | succ n =>
    unfold offerParts
    split
    · rfl
    · split
      · rfl
      · exact if_neg (by rw [h]; decide)

/-- A collection that may not go on, with records left to hand over, stays as it is. -/
theorem serveCollection_of_denied {c : Collection} (hc : s.hst.collection = some c) (hs : c.selection ≠ [])
    (h : partMayJoin s = false) : serveCollection s = s := by
  unfold serveCollection
  rw [hc]
  dsimp only
  rw [offerParts_of_denied _ h]
  exact (endCollection_cases s).2.1 c hc hs

/-- A collection that may go on places the frame of its first record, and offers the rest. -/
theorem serveCollection_of_room {c : Collection} {number : Nat} {rest : List Nat} {r : Record}
    (hc : s.hst.collection = some c) (hs : c.selection = number :: rest) (hr : collectableRecord number s.hst = some r)
    (h : partMayJoin s = true) :
    serveCollection s = endCollection (offerParts rest.length (placePart number rest c r s)) := by
  unfold serveCollection
  rw [hc]
  dsimp only
  rw [hs, List.length_cons]
  conv_lhs => unfold offerParts
  rw [hc]
  dsimp only
  rw [hs]
  dsimp only
  rw [if_pos h, hr]

/-- The record of a slot that alone holds its number. -/
theorem collectableRecord_eq {i : Fin 48} {h : Holding} {r : Record} (hi : vget s.hst.slots i = .held h r)
    (hh : h ≠ .opened) (ho : ∀ j, j ≠ i → slotNumber (vget s.hst.slots j) ≠ r.number) :
    collectableRecord r.number s.hst = some r := by
  have hcol : isCollectable (vget s.hst.slots i) = true := by
    rw [hi]
    cases h <;> first | rfl | exact absurd rfl hh
  have hfind : allSlots.find? (fun i => isCollectable (vget s.hst.slots i) &&
      decide (slotNumber (vget s.hst.slots i) = r.number)) = some i := by
    refine find_finRange_eq_some.mpr ⟨?_, fun j hj => ?_⟩
    · rw [hcol, hi]
      simp [slotNumber]
    · simp [ho j (Fin.ne_of_lt hj)]
  unfold collectableRecord
  rw [hfind, Option.bind_some, hi]
  rfl

/-- A PART frame placed, its record SENT, the collection as given, and HISTORY_HIGH judged. -/
def partPlaced (i : Fin 48) (r : Record) (dest : Byte) (left : Option Collection) (s : Block) : Block :=
  setLevel .historyHigh (decide (s.tab.line.watermark ≤ countSlots isCollectable s.hst))
    { s with
      rpu := { s.rpu with infoQ := s.rpu.infoQ ++ [{ dest := dest, kind := 0x50, payload := partPayload r }] }
      hst := { s.hst with slots := vset s.hst.slots i (.held .sent r), collection := left } }

variable {i : Fin 48} {h : Holding} {r : Record}

/-- The record of the frame is SENT, and no other slot changes. -/
theorem vmap_sendSlot (hi : vget s.hst.slots i = .held h r) (hh : h ≠ .opened)
    (ho : ∀ j, j ≠ i → slotNumber (vget s.hst.slots j) ≠ r.number) :
    vmap (sendSlot r.number) s.hst.slots = vset s.hst.slots i (.held .sent r) := by
  apply vget_ext
  intro j
  rw [vget_vmap, vget_vset]
  split
  · next hij =>
    subst hij
    rw [hi]
    cases h with
    | opened => exact absurd rfl hh
    | closed => exact if_pos rfl
    | sent => rfl
  · next hij =>
    have hj := ho j (Ne.symm hij)
    cases hs : vget s.hst.slots j with
    | free => rfl
    | held g x =>
      rw [hs] at hj
      cases g with
      | opened => rfl
      | closed => exact if_neg hj
      | sent => rfl

/-- As many records count toward HISTORY_HIGH as before. -/
theorem countSlots_sent (hi : vget s.hst.slots i = .held h r) (hh : h ≠ .opened) (left : Option Collection) :
    countSlots isCollectable { s.hst with slots := vset s.hst.slots i (.held .sent r), collection := left } =
      countSlots isCollectable s.hst := by
  unfold countSlots
  refine congrArg (fun p => (allSlots.filter p).length) (funext fun j => ?_)
  rw [vget_vset]
  split
  · next hij =>
    subst hij
    rw [hi]
    cases h <;> first | rfl | exact absurd rfl hh
  · rfl

theorem placePart_eq {c : Collection} {rest : List Nat} (hi : vget s.hst.slots i = .held h r) (hh : h ≠ .opened)
    (ho : ∀ j, j ≠ i → slotNumber (vget s.hst.slots j) ≠ r.number) :
    placePart r.number rest c r s = partPlaced i r c.requester.src (some (placed r.number rest c)) s := by
  have hslots := vmap_sendSlot hi hh ho
  have hcount := countSlots_sent hi hh (some (placed r.number rest c))
  unfold placePart partPlaced judgeHigh
  rw [← hcount, ← hslots]
  rfl

/-- The end of the collection takes it out of the store, and HISTORY_HIGH is judged as it was. -/
theorem modHst_partPlaced {dest : Byte} {left : Option Collection} :
    modHst (fun h => { h with collection := none }) (partPlaced i r dest left s) = partPlaced i r dest none s := by
  unfold partPlaced
  rw [setLevel_spec, setLevel_spec]
  rfl

theorem partPlaced_collection {dest : Byte} {left : Option Collection} :
    (partPlaced i r dest left s).hst.collection = left := by
  unfold partPlaced
  rw [setLevel_spec]

end Collect

/-- The PART payload, field by field (R25). -/
theorem partPayload_eq (r : Record) : partPayload r =
    fieldsBytes [(1, bitAt 0 r.openedAt.isSome + bitAt 1 r.closedAt.isSome + bitAt 2 r.charge.isSome +
          bitAt 3 (r.charge.isSome && r.weighedAt.isSome) + bitAt 4 r.cure.isSome + bitAt 5 r.demould.isSome),
        (4, r.number), (1, stationNum r.station), (1, r.recipeIndex.val), (1, r.revision), (1, verdictCode r.verdict),
        (2, r.flags.toNat)] ++
      partBytes stampBytes r.openedAt ++ partBytes stampBytes r.closedAt ++
      (partBytes chargeBytes r.charge ++ if r.charge.isSome then partBytes stampBytes r.weighedAt else []) ++
      partBytes cureBytes r.cure ++ partBytes demouldBytes r.demould := by
  unfold partPayload presenceByte
  simp only [fieldsBytes_cons, fieldsBytes_nil, List.append_assoc, List.append_nil]

/-- Settles O40: the refusals, the selection, one frame of a collection, and the bytes it carries. -/
theorem collectAndParts : Obligations.CollectAndParts := by
  intro q n s s1 denied
  have denies (b : Block) : denied b ↔ partMayJoin b = false := not_partMayJoin_iff.symm
  have joins {b : State} (h : ¬ denied b.toBlock) : exec .partFrameJoin b = .next (b.closing (serveCollection b.toBlock)) :=
    finish_eq (if_pos (by rw [denies, Bool.not_eq_false] at h; exact h))
  refine ⟨fun hadm => ?_, fun h => ?_, fun c i h r rest hc hs hi hh ho hroom => ?_, fun r => ?_⟩
  · intro oldest begun
    have hserve : serveCollect q [n] s1 =
        if n.toNat = 0 ∨ 8 < n.toNat then reply q 0x0F .badEntry [] s1
        else if s1.hst.collection.isSome = true then reply q 0x0F .busy [] s1
        else serveCollection begun := by
      have hjudge : judgeRequest .write (decide ([n].length = 1)) q.src s1 = none := by
        obtain ⟨-, hload, hmaster⟩ := hadm
        have hmaster : masterAdmits s1 q.src = true := hmaster
        simp [judgeRequest, hload, hmaster]
      unfold serveCollect
      rw [hjudge]
      dsimp only
      rw [field_one]
      rfl
    have hends {x : Block} (h : serveCollect q [n] s1 = x) : exec (.collect q [n]) s = .next (s.closing x) := by
      rw [← h]
      exact finish_admitted hadm (serveCollect q [n])
    have hzero : n.toNat = 0 ↔ n = 0 := by
      rw [← BitVec.toNat_inj]
      rfl
    have hbegun : begun.hst.collection =
      some { selection := oldest, requester := q, placed := 0, first := 0, last := 0 } := rfl
    have inRange (hn : n ≠ 0) (hle : n.toNat ≤ 8) : ¬ (n.toNat = 0 ∨ 8 < n.toNat) := by
      rw [hzero]
      rintro (h | h)
      · exact hn h
      · omega
    have hgo (hn : n ≠ 0) (hle : n.toNat ≤ 8) (hc : s1.hst.collection = none) :
        serveCollect q [n] s1 = serveCollection begun := by
      rw [hserve, if_neg (inRange hn hle), hc]
      rfl
    refine ⟨fun h => hends ?_, fun hn hle hc => hends ?_, fun hn hle hc ho => hends ?_, fun hn hle hc ho => ⟨fun hd => hends ?_,
      fun hd => ?_⟩⟩
    · rw [hserve, if_pos (by rw [hzero]; exact h)]
    · rw [hserve, if_neg (inRange hn hle), if_pos (Option.isSome_iff_ne_none.mpr hc)]
    · have hend := (endCollection_cases begun).2.2 _ hbegun ho
      have hback : modHst (fun h => { h with collection := none }) begun = s1 := by
        show ({ s1 with hst := { s1.hst with collection := none } } : Block) = s1
        rw [← hc]
      rw [hback] at hend
      rw [hgo hn hle hc]
      unfold serveCollection
      rw [hbegun]
      dsimp only
      rw [ho, show offerParts ([] : List Nat).length begun = begun from rfl, hend]
      dsimp only
      rw [show leBytes 1 0 ++ leBytes 4 0 ++ leBytes 4 0 = [0, 0, 0, 0, 0, 0, 0, 0, 0] by decide]
    · rw [hgo hn hle hc]
      exact serveCollection_of_denied hbegun ho ((denies s1).mp hd)
    · rw [hends (hgo hn hle hc)]
      exact (joins (b := { s with toBlock := begun }) hd).symm
  · exact finish_eq (if_neg (by rw [(denies _).mp h]; decide))
  · intro part first placed' next
    have hstep := serveCollection_of_room hc hs (collectableRecord_eq hi hh ho)
      (by rw [denies, Bool.not_eq_false] at hroom; exact hroom)
    rw [placePart_eq hi hh ho] at hstep
    have hnext : partPlaced i r c.requester.src (some (placed r.number rest c)) s.toBlock = next := rfl
    have hcol : next.hst.collection = some (placed r.number rest c) := partPlaced_collection
    rw [hnext] at hstep
    have hgo := joins hroom
    rw [hstep] at hgo
    obtain ⟨-, hleft, hempty⟩ := endCollection_cases next
    refine ⟨fun hr hd => ?_, fun hr hd => ?_, fun hr => ?_⟩
    · rw [hgo, offerParts_of_denied _ ((denies _).mp hd), hleft _ hcol hr]
    · have hthen := joins (b := { s with toBlock := next }) hd
      rw [hgo, hthen]
      unfold serveCollection
      rw [hcol]
      rfl
    · rw [hgo, hr]
      rw [hr] at hcol
      have hend := hempty _ hcol rfl
      rw [show offerParts ([] : List Nat).length next = next from rfl, hend, ← hnext, modHst_partPlaced]
      rfl
  · intro le stamp bit
    have hstamp (t : Option Stamp) : partBytes stampBytes t = stamp t := by
      cases t with
      | none => rfl
      | some t => simp [partBytes, stampBytes, stamp, le]
    refine (partPayload_eq r).trans (congrArg₂ (· ++ ·) (congrArg₂ (· ++ ·) (congrArg₂ (· ++ ·) (congrArg₂ (· ++ ·)
      (congrArg₂ (· ++ ·) ?_ (hstamp _)) (hstamp _)) ?_) ?_) ?_)
    · simp only [bitAt_eq]
      cases r.verdict <;> rfl
    · cases r.charge with
      | none => rfl
      | some p =>
        rw [hstamp]
        cases h : p.status <;> simp [partBytes, chargeBytes, chargeCode, le, h]
    · cases r.cure with
      | none => rfl
      | some p => simp [partBytes, cureBytes, le]
    · cases r.demould with
      | none => rfl
      | some p => simp [partBytes, demouldBytes, le, leBytes_one_toNat]

end Sys2Proof.Machine
end

section
/-! PROOFS. The words of Safety.lean for the opening of a cycle and the grant of a claim, tied once to the operations of the
machine (R51, R68 to R70, R134, R169). -/

namespace Sys2Proof.Machine

open Sys2Proof

/-! ### The chain of a recipe (R51) -/

/-- A path of the step table from `i` to END, over used steps without a repeat and off the steps `seen`. -/
def isPath (steps : Vector StepEntry 64) (seen : List (Fin 64)) (i : Fin 64) (path : List (Fin 64)) : Prop :=
  path.head? = some i ∧ path.Nodup ∧ (∀ x ∈ path, x ∉ seen) ∧
    ∀ (k : Nat) j, path[k]? = some j → (vget steps j).used = true ∧ (vget steps j).next = path[k + 1]?

section Chain

variable {steps : Vector StepEntry 64} {seen : List (Fin 64)} {i : Fin 64}

/-- A path goes on from its first step as the step's next field says. -/
theorem isPath_cons {p : List (Fin 64)} : isPath steps seen i (i :: p) ↔
    (vget steps i).used = true ∧ i ∉ seen ∧
      ((vget steps i).next = none ∧ p = [] ∨ ∃ j, (vget steps i).next = some j ∧ isPath steps (i :: seen) j p) := by
  constructor
  · rintro ⟨-, hnodup, hseen, hlink⟩
    obtain ⟨hi, hp⟩ := List.nodup_cons.mp hnodup
    obtain ⟨hused, hnext⟩ := hlink 0 i rfl
    refine ⟨hused, hseen i (by simp), ?_⟩
    cases p with
    | nil => exact .inl ⟨hnext, rfl⟩
    | cons j p =>
      refine .inr ⟨j, hnext, rfl, hp, fun x hx => ?_, fun k x hx => hlink (k + 1) x hx⟩
      rw [List.mem_cons, not_or]
      exact ⟨fun h => hi (h ▸ hx), hseen x (List.mem_cons_of_mem i hx)⟩
  · rintro ⟨hused, hseen, ⟨hnext, rfl⟩ | ⟨j, hnext, hhead, hnodup, hoff, hlink⟩⟩
    · refine ⟨rfl, by simp, by simpa using hseen, fun k j hj => ?_⟩
      cases k with
      | zero =>
        cases hj
        exact ⟨hused, hnext⟩
      | succ k => simp at hj
    · refine ⟨rfl, List.nodup_cons.mpr ⟨fun h => hoff i h (by simp), hnodup⟩, fun x hx => ?_, fun k x hx => ?_⟩
      · rcases List.mem_cons.mp hx with rfl | hx
        · exact hseen
        · exact fun h => hoff x hx (List.mem_cons_of_mem i h)
      · cases k with
        | zero =>
          cases hx
          refine ⟨hused, hnext.trans ?_⟩
          rw [← hhead, List.head?_eq_getElem?]
          rfl
        | succ k => exact hlink k x hx

/-- The walk finds the steps of a path that is not longer than its fuel, where there is one. -/
theorem walkChain_eq_some {fuel : Nat} {copies : List StepCopy} : walkChain steps fuel seen i = some copies ↔
    ∃ path, isPath steps seen i path ∧ path.length ≤ fuel ∧ copies = path.map fun j => (vget steps j).copy := by
  induction fuel generalizing seen i copies with
  | zero =>
    constructor
    · intro h; cases h
    · rintro ⟨path, ⟨hhead, -⟩, hlen, -⟩
      rw [List.length_eq_zero_iff.mp (Nat.le_zero.mp hlen)] at hhead
      cases hhead
  | succ fuel ih =>
    have pathForm : (∃ path, isPath steps seen i path ∧ path.length ≤ fuel + 1 ∧
        copies = path.map fun j => (vget steps j).copy) ↔
        ∃ p, isPath steps seen i (i :: p) ∧ p.length ≤ fuel ∧
          copies = (vget steps i).copy :: p.map fun j => (vget steps j).copy := by
      constructor
      · rintro ⟨path, hpath, hlen, rfl⟩
        cases path with
        | nil => cases hpath.1
        | cons a p =>
          cases hpath.1
          exact ⟨p, hpath, Nat.le_of_succ_le_succ hlen, rfl⟩
      · rintro ⟨p, hpath, hlen, rfl⟩
        exact ⟨i :: p, hpath, Nat.succ_le_succ hlen, rfl⟩
    rw [pathForm]
    unfold walkChain
    dsimp only
    by_cases hstop : (!(vget steps i).used || decide (i ∈ seen)) = true
    · rw [if_pos hstop]
      constructor
      · intro h; cases h
      · rintro ⟨p, hpath, -, -⟩
        obtain ⟨hused, hseen, -⟩ := isPath_cons.mp hpath
        simp [hused, hseen] at hstop
    · rw [if_neg hstop]
      have hstop : (vget steps i).used = true ∧ i ∉ seen := by simpa using hstop
      cases hnext : (vget steps i).next with
      | none =>
        constructor
        · intro h
          cases h
          exact ⟨[], isPath_cons.mpr ⟨hstop.1, hstop.2, .inl ⟨hnext, rfl⟩⟩, Nat.zero_le _, rfl⟩
        · rintro ⟨p, hpath, -, rfl⟩
          obtain ⟨-, -, ⟨-, rfl⟩ | ⟨j, hj, -⟩⟩ := isPath_cons.mp hpath
          · rfl
          · rw [hnext] at hj; cases hj
      | some j =>
        dsimp only
        rw [Option.map_eq_some_iff]
        constructor
        · rintro ⟨tail, htail, rfl⟩
          obtain ⟨p, hpath, hlen, rfl⟩ := ih.mp htail
          exact ⟨p, isPath_cons.mpr ⟨hstop.1, hstop.2, .inr ⟨j, hnext, hpath⟩⟩, hlen, rfl⟩
        · rintro ⟨p, hpath, hlen, rfl⟩
          obtain ⟨-, -, ⟨hn, -⟩ | ⟨j', hj, htail⟩⟩ := isPath_cons.mp hpath
          · rw [hnext] at hn; cases hn
          · rw [hnext] at hj
            cases hj
            exact ⟨_, ih.mpr ⟨p, htail, hlen, rfl⟩, rfl⟩

end Chain

theorem chainOf_eq_some {s : Block} {r : Recipe} {copies : List StepCopy} : chainOf s r = some copies ↔
    ∃ path : List (Fin 64), path.head? = some r.firstStep ∧ path.length ≤ 16 ∧ path.Nodup ∧
      (∀ (k : Nat) i, path[k]? = some i →
        (vget s.tab.steps i).used = true ∧ (vget s.tab.steps i).next = path[k + 1]?) ∧
      copies = path.map fun i => (vget s.tab.steps i).copy := by
  rw [chainOf, walkChain_eq_some]
  refine exists_congr fun path => ?_
  constructor
  · rintro ⟨⟨hhead, hnodup, -, hlink⟩, hlen, hcopies⟩
    exact ⟨hhead, hlen, hnodup, hlink, hcopies⟩
  · rintro ⟨hhead, hlen, hnodup, hlink, hcopies⟩
    exact ⟨⟨hhead, hnodup, fun _ _ => List.not_mem_nil, hlink⟩, hlen, hcopies⟩

/-! ### The slot of an open (R169, R170) -/

theorem isFree_iff {sl : HistorySlot} : isFree sl = true ↔ sl = .free := by cases sl <;> simp [isFree]

theorem availableSlot_eq_some {h : Hst} {i : Fin 48} (h0 : h.counter ≠ some 0) : availableSlot h = some i ↔
    vget h.slots i = .free ∧ (∀ j, j < i → vget h.slots j ≠ .free) ∧
      ∀ n j g r, h.counter = some n → vget h.slots j = .held g r → r.number < n := by
  have hfind : allSlots.find? (fun i => isFree (vget h.slots i)) = some i ↔
      vget h.slots i = .free ∧ ∀ j, j < i → vget h.slots j ≠ .free := by
    refine find_finRange_eq_some.trans (and_congr isFree_iff ?_)
    refine forall_congr' fun j => imp_congr_right fun _ => ?_
    rw [← Bool.not_eq_true, isFree_iff]
  unfold availableSlot
  cases hc : h.counter with
  | none =>
    dsimp only
    rw [hfind]
    exact ⟨fun ⟨h1, h2⟩ => ⟨h1, h2, fun _ _ _ _ hn => nomatch hn⟩, fun ⟨h1, h2, _⟩ => ⟨h1, h2⟩⟩
  | some n =>
    have hn : n ≠ 0 := fun hn => h0 (by rw [hc, hn])
    have habove := counterAbove_iff_of_pos (h := h) hn
    dsimp only
    split
    · next ha =>
      rw [hfind]
      refine ⟨fun ⟨h1, h2⟩ => ⟨h1, h2, fun m j g r hm hs => ?_⟩, fun ⟨h1, h2, _⟩ => ⟨h1, h2⟩⟩
      cases hm
      exact habove.mp ha j g r hs
    · next ha =>
      refine ⟨fun h => (nomatch h), fun ⟨_, _, h3⟩ => absurd (habove.mpr fun j g r hs => h3 n j g r rfl hs) ha⟩

/-! ### The cycle-open test (R68 to R70) -/

section Open

variable {s : Block} {st : Station}

/-- NO_CYCLE with a cause (R69). -/
theorem setNoCycle_of_cause {cause : NoCycle} (h : cause ≠ .none) :
    setNoCycle st cause s = setLevel (.noCycle st) true (modStc st (fun c => { c with noCycle := cause }) s) := by
  rw [setNoCycle, decide_eq_true h]

/-- An opened cycle, its claim left to be granted. -/
theorem openCycle_eq (k : Fin 16) (steps : List StepCopy) (i : Fin 48) (n : Nat) :
    openCycle st k (vget s.tab.recipes k) steps i n s = grantOldest (cycleOpened st k steps i n s) := by
  have full (h : Hst) : decide (countSlots isFree h = 0) = decide (∀ j, vget h.slots j ≠ .free) := by
    rw [decide_eq_decide, countSlots_eq_zero]
    exact forall_congr' fun j => by rw [← Bool.not_eq_true, isFree_iff]
  refine congrArg grantOldest ?_
  unfold openRecord judgeFull cycleOpened
  rw [full, setNoCycle_none, setLevel_off, setLevel_spec .historyFull]
  dsimp only
  rw [setLevel_spec .historyFull]
  cases st <;> rfl

/-- A READY station in production without what a cycle needs. -/
theorem cycleOpenTest_lacks (hr : (stcOf s st).state = .ready) (hp : (stcOf s st).production = true) :
    let lacks (cause : NoCycle) : Block := setLevel (.noCycle st) true (modStc st (fun c => { c with noCycle := cause }) s)
    (availableSlot s.hst = none → cycleOpenTest st s = lacks .historyFull) ∧
    (∀ i, availableSlot s.hst = some i → s.hst.counter = none → cycleOpenTest st s = lacks .recordBaseUnset) ∧
    (∀ i n, availableSlot s.hst = some i → s.hst.counter = some n →
      ((stcOf s st).bound = none ∨ ∃ k, (stcOf s st).bound = some k ∧ chainOf s (vget s.tab.recipes k) = none) →
      cycleOpenTest st s = lacks .recipeInvalid) := by
  unfold cycleOpenTest
  simp only [hr, hp, decide_true, Bool.and_self, if_true]
  refine ⟨fun h => ?_, fun i h hc => ?_, fun i n h hc hb => ?_⟩
  · rw [h]
    exact setNoCycle_of_cause (by decide)
  · rw [h, hc]
    exact setNoCycle_of_cause (by decide)
  · rcases hb with hb | ⟨k, hb, hk⟩
    · rw [h, hc, hb]
      exact setNoCycle_of_cause (by decide)
    · rw [h, hc, hb]
      dsimp only
      rw [hk]
      exact setNoCycle_of_cause (by decide)

/-- A READY station in production with all that a cycle needs. -/
theorem cycleOpenTest_opens {i : Fin 48} {n : Nat} {k : Fin 16} {steps : List StepCopy} (hr : (stcOf s st).state = .ready)
    (hp : (stcOf s st).production = true) (hi : availableSlot s.hst = some i) (hc : s.hst.counter = some n)
    (hb : (stcOf s st).bound = some k) (hk : chainOf s (vget s.tab.recipes k) = some steps) :
    cycleOpenTest st s = grantOldest (cycleOpened st k steps i n s) := by
  unfold cycleOpenTest
  simp only [hr, hp, decide_true, Bool.and_self, if_true, hi, hc, hb, hk]
  exact openCycle_eq k steps i n

/-! ### The grant of the oldest claim (R134) -/

/-- The control queue with a notice posted, while OUT is UP. -/
def withWeigh (s : Block) (n : WeighNotice) : List ControlFrame :=
  if s.rpu.outPort.link = .up then putWeigh (.weigh s.tab.line.robot n) s.rpu.controlQ else s.rpu.controlQ

theorem postWeigh_eq (n : WeighNotice) (s : Block) :
    postWeigh n s = { s with rpu := { s.rpu with controlQ := withWeigh s n } } := by
  unfold postWeigh postControl withWeigh
  by_cases h : s.rpu.outPort.link = .up
  · have hup : outUp s = true := decide_eq_true h
    rw [if_pos hup, if_pos h]
  · have hdown : outUp s ≠ true := fun hup => h (of_decide_eq_true hup)
    rw [if_neg hdown, if_neg h]

theorem grantOldest_idle (h : s.scu.session ≠ none ∨ s.scu.claims = []) : grantOldest s = s := by
  unfold grantOldest
  split
  · next hs hc =>
    rcases h with h | h
    · exact absurd hs h
    · rw [h] at hc; cases hc
  · rfl

/-- The beginning of an attempt does not ask what session the blocks hold. -/
theorem attemptBegun_session (u : Session) (j : Fin 48) (w : Record) (v : Option Session) (x : Block) :
    attemptBegun u j w { x with scu := { x.scu with session := v } } = attemptBegun u j w x := by
  unfold attemptBegun
  exact evaluated_session _ v (writes j _ { x with scu := { x.scu with loading := _ } })

theorem grantOldest_granted {o : Station} {rest : List Station} {cy : Cycle} {j : Fin 48} {w : Record}
    (hs : s.scu.session = none) (hc : s.scu.claims = o :: rest) (hy : (stcOf s o).cycle = some cy)
    (hw : openIn s j cy.record w) : grantOldest s = granted o cy j w s := by
  let y : Block := { s with scu := { s.scu with claims := s.scu.claims.tail } }
  let x : Block := { y with scu := { y.scu with session := some (newSession o cy.recipe) } }
  have hx : grantOldest s = evalClearing x := by
    unfold grantOldest
    rw [hs, hc]
    dsimp only
    rw [hy]
    simp only [x, y, hc]
    rfl
  have hnet : filteredNet x = filteredNet s := filteredNet_congr rfl rfl
  have hempty : scaleEmpty x = true ↔ s.scu.stable = true ∧ filteredNet s ≤ s.tab.line.emptyLimit := by
    rw [scaleEmpty, hnet, Bool.and_eq_true, decide_eq_true_iff]
  rw [hx]
  unfold evalClearing granted
  rw [show x.scu.session = some (newSession o cy.recipe) from rfl]
  dsimp only
  by_cases he : s.scu.stable = true ∧ filteredNet s ≤ s.tab.line.emptyLimit
  · rw [if_pos (hempty.mpr he), if_pos he]
    exact (enterLoading_attemptBegun (x := x) (u := newSession o cy.recipe) rfl hy (openIn_congr hw rfl)).trans
      (attemptBegun_session _ j w _ y)
  · rw [if_neg (mt hempty.mp he), if_neg he]
    by_cases hst : s.scu.stable = true
    · have hask : (x.scu.stable && !(newSession o cy.recipe).clearSent) = true := by
        rw [show x.scu.stable = true from hst]
        rfl
      rw [if_pos hask, if_pos hst, notify, hnet, postWeigh_eq, postWeigh_eq]
      rfl
    · have hask : ¬ (x.scu.stable && !(newSession o cy.recipe).clearSent) = true := by
        rw [show x.scu.stable = false by simpa using hst]
        rw [Bool.false_and]
        decide
      rw [if_neg hask, if_neg hst]
      rfl

end Open

/-! ### What an evaluation and a grant change -/

/-- An evaluation in LOADING changes the control queue and the Scale Unit. -/
theorem evaluated_eq (u : Session) (x : Block) :
    let net := filteredNet x
    let near := !u.nearSent && decide (((u.target * u.early / 1000 : Nat) : Int) ≤ net)
    evaluated u x = { x with
      rpu := { x.rpu with controlQ :=
          if near = true then withWeigh x { station := u.owner, notice := .nearTarget, attempt := u.attempts
                                            cause := .none, weight := net }
          else x.rpu.controlQ }
      scu := { x.scu with
        session := some { u with nearSent := u.nearSent || near }
        dwell := if (x.scu.stable && decide ((x.tab.line.emptyLimit : Int) < net) && !x.scu.overload) = true then
            (match x.scu.dwell with
              | some d => some d
              | none => some { elapsed := 0, length := (x.tab.line.dwellCode + 1) * 100 })
          else none } } := by
  unfold evaluated
  dsimp only
  by_cases h : (!u.nearSent && decide (((u.target * u.early / 1000 : Nat) : Int) ≤ filteredNet x)) = true
  · rw [if_pos h, if_pos h, postWeigh_eq] <;> rfl
  · rw [if_neg h, if_neg h] <;> rfl

theorem mem_replaceOrJoin_new (p : ControlFrame → Bool) (new : ControlFrame) (q : List ControlFrame) :
    new ∈ replaceOrJoin p new q := by
  induction q with
  | nil => simp [replaceOrJoin]
  | cons f fs ih =>
    unfold replaceOrJoin
    split
    · simp
    · exact List.mem_cons_of_mem f ih

theorem mem_replaceOrJoin_of_mem {p : ControlFrame → Bool} {new f : ControlFrame} {q : List ControlFrame} (hf : f ∈ q)
    (hp : p f = false) : f ∈ replaceOrJoin p new q := by
  induction q with
  | nil => cases hf
  | cons g fs ih =>
    unfold replaceOrJoin
    rcases List.mem_cons.mp hf with rfl | hf
    · rw [hp]
      simp
    · split
      · exact List.mem_cons_of_mem _ hf
      · exact List.mem_cons_of_mem _ (ih hf)

theorem mem_putWeigh (new : ControlFrame) (q : List ControlFrame) : new ∈ putWeigh new q := by
  unfold putWeigh
  simp

end Sys2Proof.Machine
end

section
/-! PROOFS. PRODUCE and STOP (R65), with the cycle that a PRODUCE opens in READY and the claim or session it begins. -/

namespace Sys2Proof.Machine

open Sys2Proof

/-! ### What a posted PERMIT changes (R84) -/

theorem stcOf_postPermit_self (s : Block) (st : Station) : stcOf (postPermit st s) st =
    { stcOf s st with refresh := some { elapsed := 0, length := (s.tab.stations.get st).refresh } } := by
  rw [postPermit_spec]
  cases st <;> rfl

theorem stcOf_postPermit_other (s : Block) (st : Station) :
    stcOf (postPermit st s) (otherStation st) = stcOf s (otherStation st) := by
  rw [postPermit_spec]
  cases st <;> rfl

section Opened

variable {s : Block} {st : Station} {k : Fin 16} {steps : List StepCopy} {i : Fin 48} {n : Nat}

/-- The record of a cycle as it opens, with a charge part or none. -/
def openedRecord (s : Block) (st : Station) (k : Fin 16) (n : Nat) (part : Option ChargePart) : Record :=
  { number := n, station := st, recipeIndex := k, revision := (vget s.tab.recipes k).revision, verdict := .good, flags := 0
    openedAt := s.hst.lineTime, closedAt := none, charge := part, weighedAt := none, cure := none, demould := none }

/-- The cycle context of a cycle as it opens (R70). -/
def openedCycle (s : Block) (k : Fin 16) (steps : List StepCopy) (n : Nat) : Cycle :=
  { record := n, recipeIndex := k, recipe := vget s.tab.recipes k, steps := steps, waitRunning := false, chargeWait := 0
    accruing := false, accrued := 0, accrualUp := false, outCounting := false, outOfBand := 0
    elapsedRunning := false, elapsed := 0, peakTonnage := 0 }

/-- An opening changes the station, the store, the queue of claims and the conditions. -/
theorem cycleOpened_eq : ∃ cdu : Cdu, cdu.mask = s.cdu.mask ∧ cdu.gateOpen = s.cdu.gateOpen ∧
    cycleOpened st k steps i n s =
      modStc st (fun c => { c with state := .charging, noCycle := .none, cycle := some (openedCycle s k steps n) })
        { s with
          cdu := cdu
          hst := { s.hst with
            slots := vset s.hst.slots i (.held .opened (openedRecord s st k n none))
            order := s.hst.order ++ [i], counter := some (if n = 4294967295 then 1 else n + 1) }
          scu := { s.scu with claims := s.scu.claims ++ [st] } } := by
  refine ⟨(setLevel .historyFull (decide (∀ j, vget (vset s.hst.slots i (.held .opened (openedRecord s st k n none))) j ≠
    .free)) (setLevel (.noCycle st) false s)).cdu, ?_, ?_, ?_⟩
  · rw [setLevel_spec, setLevel_off]
  · rw [setLevel_spec, setLevel_off]
  · unfold cycleOpened
    dsimp only
    rw [setLevel_off, setLevel_spec .historyFull, setLevel_spec .historyFull]
    rfl

/-- The session of a claim just granted, by its state, attempts and notices sent. -/
def freshSession (st : Station) (r : Recipe) (x : SessionState) (attempts : Nat) (near clear : Bool) : Session :=
  { owner := st, state := x, attempts := attempts, target := r.target, tolLow := r.tolLow, tolHigh := r.tolHigh
    early := r.early, maxAttempts := r.maxAttempts, nearSent := near, clearSent := clear }

/-- What the claim of an opened cycle comes to where it waits or is granted at once (R134, R136, R137): the Scale Unit, the
notice posted, and the charge part of the record. -/
def claimOutcome (s : Block) (st : Station) (r : Recipe) : Scu × Option WeighNotice × Option ChargePart :=
  let net := filteredNet s
  let notice (n : Notice) (attempt : Nat) : WeighNotice :=
    { station := st, notice := n, attempt := attempt, cause := .none, weight := net }
  let near : Bool := decide (((r.target * r.early / 1000 : Nat) : Int) ≤ net)
  if s.scu.session ≠ none then ({ s.scu with claims := s.scu.claims ++ [st] }, none, none)
  else if s.scu.stable = false then ({ s.scu with session := some (freshSession st r .clearing 0 false false) }, none, none)
  else if (s.tab.line.emptyLimit : Int) < net then
    ({ s.scu with session := some (freshSession st r .clearing 0 false true) }, some (notice .clearScale 0), none)
  else
    ({ s.scu with
        session := some (freshSession st r .loading 1 near false), dwell := none
        loading := some { elapsed := 0, length := s.tab.line.maxLoading * 1000 } },
      if near = true then some (notice .nearTarget 1) else none,
      some { attempts := 1, status := .pending, weight := 0, wait := 0 })

section Outcome

variable {r : Recipe} (hs : s.scu.session = none)

theorem claimOutcome_waits (h : s.scu.session ≠ none) :
    claimOutcome s st r = ({ s.scu with claims := s.scu.claims ++ [st] }, none, none) := if_pos h

include hs

theorem claimOutcome_unstable (hu : s.scu.stable = false) : claimOutcome s st r =
    ({ s.scu with session := some (freshSession st r .clearing 0 false false) }, none, none) :=
  (if_neg (not_not.mpr hs)).trans (if_pos hu)

theorem claimOutcome_loaded (hu : s.scu.stable = true) (hl : (s.tab.line.emptyLimit : Int) < filteredNet s) :
    claimOutcome s st r = ({ s.scu with session := some (freshSession st r .clearing 0 false true) },
      some { station := st, notice := .clearScale, attempt := 0, cause := .none, weight := filteredNet s }, none) :=
  (if_neg (not_not.mpr hs)).trans ((if_neg (by rw [hu]; decide)).trans (if_pos hl))

theorem claimOutcome_empty (hu : s.scu.stable = true) (hl : filteredNet s ≤ s.tab.line.emptyLimit) :
    let near : Bool := decide (((r.target * r.early / 1000 : Nat) : Int) ≤ filteredNet s)
    claimOutcome s st r = ({ s.scu with
        session := some (freshSession st r .loading 1 near false), dwell := none
        loading := some { elapsed := 0, length := s.tab.line.maxLoading * 1000 } },
      if near = true then some { station := st, notice := .nearTarget, attempt := 1, cause := .none, weight := filteredNet s }
      else none,
      some { attempts := 1, status := .pending, weight := 0, wait := 0 }) :=
  (if_neg (not_not.mpr hs)).trans ((if_neg (by rw [hu]; decide)).trans (if_neg (Int.not_lt.mpr hl)))

end Outcome

/-- The charge part begins with the first attempt, where the claim is granted alone on an empty scale. -/
theorem claimOutcome_charge {r : Recipe} (h : s.scu.session ≠ none ∨ s.scu.claims = []) : (claimOutcome s st r).2.2 =
    if s.scu.session = none ∧ s.scu.claims = [] ∧ scaleEmpty s = true then
      some { attempts := 1, status := .pending, weight := 0, wait := 0 } else none := by
  by_cases hs : s.scu.session = none
  · have hc := h.resolve_left (fun h => h hs)
    cases hu : s.scu.stable with
    | false => rw [claimOutcome_unstable hs hu, if_neg (by simp [scaleEmpty, hu])]
    | true =>
      by_cases hl : filteredNet s ≤ s.tab.line.emptyLimit
      · have hempty : scaleEmpty s = true := by simp [scaleEmpty, hu, hl]
        rw [claimOutcome_empty hs hu hl]
        exact (if_pos ⟨hs, hc, hempty⟩).symm
      · rw [claimOutcome_loaded hs hu (Int.not_le.mp hl), if_neg (by simp [scaleEmpty, hl])]
  · rw [claimOutcome_waits hs, if_neg (fun h => hs h.1)]

/-- An opened cycle whose claim waits behind a session, or is granted alone. -/
theorem grantOldest_cycleOpened (hn : ∀ j, slotNumber (vget s.hst.slots j) < n)
    (hs : s.scu.session ≠ none ∨ s.scu.claims = []) :
    let out := claimOutcome s st (vget s.tab.recipes k)
    ∃ cdu : Cdu, cdu.mask = s.cdu.mask ∧ cdu.gateOpen = s.cdu.gateOpen ∧
    grantOldest (cycleOpened st k steps i n s) =
      modStc st (fun c => { c with state := .charging, noCycle := .none, cycle := some (openedCycle s k steps n) })
        { s with
          cdu := cdu
          hst := { s.hst with
            slots := vset s.hst.slots i (.held .opened (openedRecord s st k n out.2.2))
            order := s.hst.order ++ [i], counter := some (if n = 4294967295 then 1 else n + 1) }
          scu := out.1
          rpu := { s.rpu with controlQ := match out.2.1 with
            | some w => withWeigh s w
            | none => s.rpu.controlQ } } := by
  intro out
  obtain ⟨cdu, hmask, hgate, hx⟩ := cycleOpened_eq (s := s) (st := st) (k := k) (steps := steps) (i := i) (n := n)
  refine ⟨cdu, hmask, hgate, ?_⟩
  generalize cycleOpened st k steps i n s = x at hx
  by_cases hsess : s.scu.session = none
  · have hc : s.scu.claims = [] := hs.resolve_left (fun h => h hsess)
    have hst : stcOf x st = { stcOf s st with
        state := .charging, noCycle := .none, cycle := some (openedCycle s k steps n) } := by
      rw [hx]
      exact stcOf_modStc_self _ st _
    have hnet : filteredNet x = filteredNet s := filteredNet_congr (by rw [hx]; rfl) (by rw [hx]; rfl)
    have hopen : openIn x i n (openedRecord s st k n none) := by
      have hslots : x.hst.slots = vset s.hst.slots i (.held .opened (openedRecord s st k n none)) := by rw [hx]; rfl
      refine ⟨by rw [hslots, vget_vset_self], rfl, fun j hj => ?_⟩
      rw [hslots, vget_vset_ne _ _ (Ne.symm hj)]
      exact Nat.ne_of_lt (hn j)
    rw [grantOldest_granted (o := st) (rest := []) (cy := openedCycle s k steps n) (by rw [hx]; exact hsess)
      (by rw [hx]; show s.scu.claims ++ [st] = [st]; rw [hc]; rfl) (by rw [hst]) hopen]
    have hempty : x.scu.stable = s.scu.stable ∧ x.tab.line = s.tab.line := by rw [hx]; exact ⟨rfl, rfl⟩
    have hclaims : x.scu.claims.tail = s.scu.claims := by
      rw [hx]
      show (s.scu.claims ++ [st]).tail = s.scu.claims
      rw [hc]
      rfl
    unfold granted
    rw [hempty.1, hempty.2, hnet, hclaims]
    dsimp only
    by_cases hstable : s.scu.stable = true
    · by_cases hle : filteredNet s ≤ s.tab.line.emptyLimit
      · have hout := claimOutcome_empty (st := st) (r := vget s.tab.recipes k) hsess hstable hle
        rw [if_pos ⟨hstable, hle⟩, show out = _ from hout]
        unfold attemptBegun
        dsimp only
        generalize hy : writes i _ _ = y
        have hynet : filteredNet y = filteredNet s := by
          rw [← hnet]
          exact filteredNet_congr (by rw [← hy]; rfl) (by rw [← hy]; rfl)
        have hyline : y.tab.line = s.tab.line := by rw [← hempty.2, ← hy]; rfl
        have still : ¬ (y.scu.stable && decide ((s.tab.line.emptyLimit : Int) < filteredNet s) && !y.scu.overload) = true := by
          rw [decide_eq_false (Int.not_lt.mpr hle), Bool.and_false, Bool.false_and]
          decide
        rw [evaluated_eq]
        dsimp only
        rw [hynet, hyline, if_neg still]
        simp only [openedCycle, Bool.not_false, Bool.true_and, Bool.false_or]
        rw [← vset_vset s.hst.slots i (.held .opened (openedRecord s st k n none)) (.held .opened
          (openedRecord s st k n (some { attempts := 1, status := .pending, weight := 0, wait := 0 })))]
        by_cases hn : (((vget s.tab.recipes k).target * (vget s.tab.recipes k).early / 1000 : Nat) : Int) ≤ filteredNet s
        · simp only [hn, decide_true, if_true]
          rw [← hy, hx]
          rfl
        · simp only [hn, decide_false, Bool.false_eq_true, if_false]
          rw [← hy, hx]
          rfl
      · have hlt : (s.tab.line.emptyLimit : Int) < filteredNet s := Int.not_le.mp hle
        have hout : out = _ := claimOutcome_loaded hsess hstable hlt
        rw [if_neg (fun h => hle h.2), if_pos hstable, postWeigh_eq, hout, hx]
        rfl
    · have hout : out = _ := claimOutcome_unstable hsess (by simpa using hstable)
      rw [if_neg (fun h => hstable h.1), if_neg hstable, hout, hx]
      rfl
  · have hidle : grantOldest x = x := grantOldest_idle (.inl (by rw [hx]; exact hsess))
    have hout : out = _ := claimOutcome_waits hsess
    rw [hidle, hout, hx]

/-- The counter stands above every number held, and so above 0, where a slot may be taken. -/
theorem counterAbove_of_available (hi : availableSlot s.hst = some i) (hc : s.hst.counter = some n) :
    ∀ j, slotNumber (vget s.hst.slots j) < n := by
  unfold availableSlot at hi
  rw [hc] at hi
  dsimp only at hi
  split at hi
  · next h => exact (counterAbove_iff s.hst n).mp h
  · cases hi

end Opened

/-- Settles O33: the chain, the slot, the test and the grant for any block, then PRODUCE and STOP. -/
theorem produceAndStop : Obligations.ProduceAndStop := by
  refine ⟨fun s r steps => chainOf_eq_some, fun h i h0 => availableSlot_eq_some h0, fun x st => ?_, fun x => ?_,
    fun q sb arg st s s1 hs => ?_⟩
  · intro c lacks
    refine ⟨fun h => cycleOpenTest_idle h, fun hr hp => ?_⟩
    obtain ⟨hfull, hunset, hinvalid⟩ := cycleOpenTest_lacks (s := x) hr hp
    exact ⟨hfull, fun i hi => ⟨hunset i hi, fun n hn => ⟨hinvalid i n hi hn, fun k steps hb hk =>
      cycleOpenTest_opens hr hp hi hn hb hk⟩⟩⟩
  · refine ⟨grantOldest_idle, fun o rest cy j w h1 h2 h3 h4 => grantOldest_granted h1 h2 h3 h4, testStations_notBoth,
      fun ha hb => ?_⟩
    exact if_pos (by rw [Bool.and_eq_true]; exact ⟨decide_eq_true ha, decide_eq_true hb⟩)
  intro c made fails
  refine ⟨fun hadm => station_answers rfl hadm hs ?_, fun hadm => ?_⟩
  · have hstop : setNoCycle st .none (modStc st (fun c => { c with production := false }) s1) =
        setLevel (.noCycle st) false (modStc st (fun c => { c with production := false, noCycle := .none }) s1) := by
      unfold setNoCycle
      rw [modStc_modStc]
      rfl
    exact congrArg accept hstop
  have answers {b : Block} (h : ownProduce st s1 = accept b) : answered (.produce q sb arg) s q 0x04 .ok [] b :=
    station_answers rfl hadm hs h
  have produces (hp : c.production = false) {b : Block} (h : event (fun _ => cycleOpenTest st made) s1 = b) :
      answered (.produce q sb arg) s q 0x04 .ok [] b :=
    answers ((if_neg (by rw [show (stcOf s1 st).production = false from hp]; decide)).trans (congrArg accept h))
  have hmade : stcOf made st = { c with production := true } := stcOf_modStc_self s1 st _
  refine ⟨fun hp => answers (if_pos hp), fun hp hr => produces hp ?_, fun hp hr => ⟨produces hp rfl, ?_⟩⟩
  · have idle : cycleOpenTest st made = made := cycleOpenTest_idle (.inl (by rw [hmade]; exact hr))
    exact event_modStc (g := fun c => { c with production := true }) idle rfl rfl rfl rfl
  have hr' : (stcOf made st).state = .ready := by rw [hmade]; exact hr
  have hp' : (stcOf made st).production = true := by rw [hmade]
  obtain ⟨hfull, hunset, hinvalid⟩ := cycleOpenTest_lacks hr' hp'
  have lacking (cause : NoCycle) (h : cycleOpenTest st made =
      setLevel (.noCycle st) true (modStc st (fun c => { c with noCycle := cause }) made)) : fails cause := by
    refine produces hp ?_
    have hx : setLevel (.noCycle st) true (modStc st (fun c => { c with noCycle := cause }) made) =
        setLevel (.noCycle st) true (modStc st (fun c => { c with production := true, noCycle := cause }) s1) := by
      rw [modStc_modStc]
    rw [hx] at h
    rw [← h]
    have hst (y : Station) : stcOf (cycleOpenTest st made) y =
        stcOf (modStc st (fun c => { c with production := true, noCycle := cause }) s1) y := by
      rw [h, stcOf_setLevel]
    refine event_eq _ _ (fun y => ?_) (fun y => ?_)
    · apply permitOf_congr <;> rw [hst, stcOf_modStc] <;> split <;> first | rfl | (next h => subst h; rfl)
    · rw [stateOf, hst, stcOf_modStc]
      split <;> first | rfl | (next h => subst h; rfl)
  refine ⟨fun h => lacking _ (hfull h), fun i hi => ⟨fun h => lacking _ (hunset i hi h), fun n hn =>
    ⟨fun h => lacking _ (hinvalid i n hi hn (by rw [hmade]; exact h)), fun k steps hb hk hy hheld hsess => ?_⟩⟩⟩
  intro r fresh posted near
  obtain ⟨cdu, hmask, hgate, hx⟩ := grantOldest_cycleOpened (s := made) (st := st) (k := k) (steps := steps) (i := i)
    (counterAbove_of_available hi hn) hsess
  have opens := cycleOpenTest_opens (s := made) (steps := steps) hr' hp' hi hn (by rw [hmade]; exact hb) hk
  rw [hx] at opens
  have hout : claimOutcome made st (vget made.tab.recipes k) = claimOutcome s1 st r := rfl
  rw [hout] at opens
  generalize hx' : cycleOpenTest st made = x at opens
  let cq : List ControlFrame := match (claimOutcome s1 st r).2.1 with
    | some w => withWeigh s1 w
    | none => s1.rpu.controlQ
  have hx : x = modStc st (fun c => { c with
        production := true, state := .charging, noCycle := .none, cycle := some (openedCycle s1 k steps n) })
      { s1 with
        cdu := cdu
        hst := { s1.hst with
          slots := vset s1.hst.slots i (.held .opened (openedRecord s1 st k n (claimOutcome s1 st r).2.2))
          order := s1.hst.order ++ [i], counter := some (if n = 4294967295 then 1 else n + 1) }
        scu := (claimOutcome s1 st r).1
        rpu := { s1.rpu with controlQ := cq } } := by
    rw [opens]
    cases st <;> rfl
  have hst : stcOf x st = { c with
      production := true, state := .charging, noCycle := .none, cycle := some (openedCycle s1 k steps n) } := by
    rw [hx]
    exact stcOf_modStc_self _ st _
  have ho : stcOf x (otherStation st) = stcOf s1 (otherStation st) := by
    rw [hx]
    exact stcOf_modStc_other _ st _
  have hpos : n ≠ 0 := by
    have h := counterAbove_of_available hi hn i
    omega
  have hpermit : permitOf x st ≠ permitOf s1 st := by
    intro h
    have hrec := congrArg (fun p => p.2.2) h
    have hy' : (stcOf s1 st).cycle = none := hy
    simp only [permitOf, permitRecord, hst, hy', openedCycle] at hrec
    exact hpos hrec
  have htab : x.tab = s1.tab := by rw [hx]; rfl
  have hzone (z : Fin 32) : zoneOf x z = zoneOf s1 z := by rw [hx]; rfl
  have hstate : (stcOf x st).state = .charging := by rw [hst]
  have hready : (stcOf s1 st).state = .ready := hr
  have hb' : (stcOf s1 st).bound = some k := hb
  have hy' : (stcOf s1 st).cycle = none := hy
  have recipe : recipeFor s1 st = some r := by simp only [recipeFor, hy', hb', Option.map_some]; rfl
  have recipe' : recipeFor x st = some r := by simp only [recipeFor, hst]; rfl
  have hheld' : targetsHeld x st := by
    intro z hmem hin
    rw [zonesOf_congr st htab] at hmem
    have he : entryOf x z = entryOf s1 z := by rw [entryOf, htab]; rfl
    have hz : (entryOf s1 z).station = st := ((mem_zonesOf s1 st z).mp hmem).2
    rw [hzone] at hin ⊢
    rw [← hheld z hmem hin,
      zoneTarget_heat (s := x) (by rw [he, hz]) (by rw [hstate]; decide) (by rw [hstate]; decide) recipe',
      zoneTarget_heat hz (by rw [hready]; decide) (by rw [hready]; decide) recipe, he]
  have opened : event (fun _ => cycleOpenTest st made) s1 = postPermit st x := by
    rw [event_posts (f := fun _ => cycleOpenTest st made) (fun y => ?_), hx', (postPermits_eq _ _).2.1 st hpermit]
    · apply permitOf_congr <;> rw [ho]
    · rw [hx']
      refine station_cases (P := fun y => targetsHeld x y ∨
        ((stcOf x y).state = (stcOf s1 y).state ∧ permitRecord x y = permitRecord s1 y)) st (.inl hheld') (.inr ?_) y
      simp only [permitRecord, ho, and_self]
  have hq : x.rpu = { s1.rpu with controlQ := cq } := by rw [hx]; rfl
  have hscu : x.scu = (claimOutcome s1 st r).1 := by rw [hx]; rfl
  have hhst : x.hst = { s1.hst with
      slots := vset s1.hst.slots i (.held .opened (openedRecord s1 st k n (claimOutcome s1 st r).2.2))
      order := s1.hst.order ++ [i], counter := some (if n = 4294967295 then 1 else n + 1) } := by rw [hx]; rfl
  have hcdu : x.cdu = cdu := by rw [hx]; rfl
  have hrest : x.zrg = s1.zrg ∧ x.pwa = s1.pwa ∧ x.dms = s1.dms ∧ x.mga = s1.mga := by rw [hx]; exact ⟨rfl, rfl, rfl, rfl⟩
  have bst := stcOf_postPermit_self x st
  have bo := stcOf_postPermit_other x st
  have hbx := postPermit_eq (s := x) (st := st)
  generalize postPermit st x = b at hbx opened bst bo
  have bq : b.rpu = { x.rpu with controlQ := withPermit x st } := by rw [hbx]
  have bhst : b.hst = x.hst := by rw [hbx]; rfl
  have bscu : b.scu = x.scu := by rw [hbx]; rfl
  have bcdu : b.cdu = cdu := by rw [hbx, ← hcdu]; rfl
  have brest : b.tab = x.tab ∧ b.zrg = x.zrg ∧ b.pwa = x.pwa ∧ b.dms = x.dms ∧ b.mga = x.mga := by
    rw [hbx]; exact ⟨rfl, rfl, rfl, rfl, rfl⟩
  have up : s1.rpu.outPort.link = .up → b.rpu.controlQ = replaceOrJoin (isPermitOf st)
      (.permit st (s1.tab.stations.get st).pressNode c.closeOk c.openOk n) cq := by
    intro hup
    rw [bq]
    show withPermit x st = _
    unfold withPermit
    rw [hq, hst, htab, if_pos hup]
    rfl
  have posts {w : WeighNotice} (hw : (claimOutcome s1 st r).2.1 = some w) (hup : s1.rpu.outPort.link = .up) :
      .weigh s1.tab.line.robot w ∈ b.rpu.controlQ := by
    rw [up hup]
    refine mem_replaceOrJoin_of_mem ?_ rfl
    have hcq : cq = withWeigh s1 w := by simp only [cq, hw]
    rw [hcq, withWeigh, if_pos hup]
    exact mem_putWeigh _ _
  refine ⟨b, produces hp opened, ?_, fun hup => ?_, bo.trans ho, ?_, fun j hj => ?_, ?_, fun h => ?_, fun h h' => ⟨fun hu => ?_,
    fun hu hl => ?_, fun hu hl => ?_⟩, ?_, ?_, ?_, ?_⟩
  · rw [bst, hst, htab]
    rfl
  · rw [up hup]
    exact mem_replaceOrJoin_new _ _ _
  · rw [bhst, hhst]
    show vget (vset _ _ _) i = _
    rw [vget_vset_self, claimOutcome_charge hsess]
    rfl
  · rw [bhst, hhst]
    exact vget_vset_ne _ _ (Ne.symm hj)
  · rw [bhst, hhst]
  · rw [bscu, hscu, claimOutcome_waits h]
  · rw [bscu, hscu, claimOutcome_unstable h hu]
    rfl
  · refine ⟨?_, posts (by rw [claimOutcome_loaded h hu hl])⟩
    rw [bscu, hscu, claimOutcome_loaded h hu hl]
    rfl
  · refine ⟨?_, fun hnear => posts ?_⟩
    · rw [bscu, hscu, claimOutcome_empty h hu hl]
      rfl
    · rw [claimOutcome_empty h hu hl]
      exact if_pos hnear
  · rw [bq, hq]
  · rw [bcdu, hmask]
    rfl
  · rw [bcdu, hgate]
    rfl
  · obtain ⟨h1, h2, h3, h4, h5⟩ := brest
    obtain ⟨e2, e3, e4, e5⟩ := hrest
    exact ⟨h1.trans htab, h2.trans e2, h3.trans e3, h4.trans e4, h5.trans e5⟩

end Sys2Proof.Machine
end

section
/-! PROOFS. The words of Safety.lean for the close of a cycle, tied once to the operations of the machine (R82, R83, R133,
R135), and the events that close one. -/

namespace Sys2Proof.Machine

open Sys2Proof

section Close

variable {s : Block} {st : Station} {cy : Cycle} {i : Fin 48} {r : Record}

/-! ### The record of a cycle that closes (R73, R175) -/

/-- The record with a charge wait still running written. -/
def waited (cy : Cycle) (r : Record) : Record :=
  { r with charge := if cy.waitRunning = true then r.charge.map fun p => { p with wait := cy.chargeWait } else r.charge }

theorem writeWait_writes (hc : (stcOf s st).cycle = some cy) (ho : openIn s i cy.record r) :
    writeWait st s = writes i (waited cy r) s := by
  unfold writeWait waited
  rw [hc]
  dsimp only
  split
  · exact modOpenRecord_writes hc ho _
  · exact (writes_self ho).symm

/-- The record as its close leaves it. -/
def closedRecord (cy : Cycle) (r : Record) (time : Option Stamp) : Record :=
  { waited cy r with verdict := verdictOf r.flags, closedAt := time }

/-- The block with the record CLOSED, HISTORY_HIGH judged, CYCLE_CLOSED latched and the accepted charge none. -/
def recordClosed (st : Station) (cy : Cycle) (i : Fin 48) (r : Record) (s : Block) : Block :=
  let slots := vset s.hst.slots i (.held .closed (closedRecord cy r s.hst.lineTime))
  let x := setLevel .historyHigh
    (decide (s.tab.line.watermark ≤ (allSlots.filter fun j => isCollectable (vget slots j)).length)) s
  { x with
    hst := { s.hst with slots := slots }
    scu := { s.scu with accepted := s.scu.accepted.set st none }
    cdu := { x.cdu with latched := x.cdu.latched ||| (1#23 <<< (5 * stationNum st + 1)) } }

theorem recordClosed_eq : recordClosed st cy i r s = { s with
    hst := { s.hst with slots := vset s.hst.slots i (.held .closed (closedRecord cy r s.hst.lineTime)) }
    scu := { s.scu with accepted := s.scu.accepted.set st none }
    cdu := (recordClosed st cy i r s).cdu } := by
  unfold recordClosed
  dsimp only
  rw [setLevel_spec]

/-- The station's context with its cycle gone and its permits clear. -/
def cycleGone (c : Stc) : Stc := { c with cycle := none, closeOk := false, openOk := false }

theorem dropAccepted_closeRecord (hc : (stcOf s st).cycle = some cy) (ho : openIn s i cy.record r) :
    dropAccepted st (modStc st cycleGone (latchCond (.cycleClosed st) (closeRecord cy.record (writeWait st s)))) =
      modStc st cycleGone (recordClosed st cy i r s) := by
  rw [writeWait_writes hc ho, closeRecord_of_openIn (openIn_writes (x := waited cy r) ho rfl)]
  unfold recordClosed
  dsimp only
  rw [setLevel_spec]
  unfold judgeHigh
  rw [setLevel_spec]
  have slots : (writes i (waited cy r) s).hst.slots = vset s.hst.slots i (.held .opened (waited cy r)) := rfl
  rw [slots, vset_vset]
  rfl

/-- The station's context once its cycle is closed (R66, R82). -/
def closedStc (s : Block) (st : Station) (c : Stc) : Stc :=
  { c with
    state := if c.heatReady = true then .ready else .preheat
    cycle := none, closeOk := false, openOk := false
    settle := if c.heatReady = false ∧ c.settle = none ∧ allInBand s st = true then
        c.bound.map fun k => { elapsed := 0, length := (vget s.tab.recipes k).settle * 1000 }
      else c.settle }

/-- The close of a cycle, and the cycle-open test that ends it (R82). -/
theorem closeCycle_eq (hc : (stcOf s st).cycle = some cy) (ho : openIn s i cy.record r) :
    closeCycle st s = cycleOpenTest st (cycleClosed st cy i r s) := by
  have hgone := dropAccepted_closeRecord hc ho
  have hst : stcOf (modStc st cycleGone (recordClosed st cy i r s)) st = cycleGone (stcOf s st) := by
    rw [stcOf_modStc_self, recordClosed_eq]
    rfl
  have htab : (modStc st cycleGone (recordClosed st cy i r s)).tab = s.tab := by
    rw [recordClosed_eq]
    rfl
  have hrec : stcOf (recordClosed st cy i r s) st = stcOf s st := by rw [recordClosed_eq]; rfl
  have hclosed : cycleClosed st cy i r s = modStc st (closedStc s st) (recordClosed st cy i r s) := rfl
  have close : closeCycle st s = (fun x => if (stcOf x st).heatReady = true then cycleOpenTest st (setState st .ready x)
      else startSettle st (setState st .preheat x)) (dropAccepted st (modStc st cycleGone
        (latchCond (.cycleClosed st) (closeRecord cy.record (writeWait st s))))) := by
    unfold closeCycle
    rw [hc]
    rfl
  rw [close, hgone]
  dsimp only
  rw [hst, hclosed]
  generalize hx : modStc st cycleGone (recordClosed st cy i r s) = x at hst htab
  have inState (y : StationState) (f : Stc → Stc) : modStc st f (setState st y x) =
      modStc st (fun c => f { cycleGone c with state := y }) (recordClosed st cy i r s) := by
    unfold setState
    rw [modStc_modStc, ← hx, modStc_modStc]
  have stays (y : StationState) (h : closedStc s st (stcOf s st) = { cycleGone (stcOf s st) with state := y }) :
      setState st y x = modStc st (closedStc s st) (recordClosed st cy i r s) := by
    rw [← modStc_of_fixed (f := id) (s := setState st y x) (st := st) rfl, inState]
    exact modStc_congr st _ _ _ (by rw [hrec]; exact h.symm)
  by_cases hh : (stcOf s st).heatReady = true
  · rw [if_pos (by exact hh), stays .ready (by simp [closedStc, cycleGone, hh])]
  · have hh : (stcOf s st).heatReady = false := by simpa using hh
    have idle : cycleOpenTest st (modStc st (closedStc s st) (recordClosed st cy i r s)) =
        modStc st (closedStc s st) (recordClosed st cy i r s) :=
      cycleOpenTest_idle (.inl (by rw [stcOf_modStc_self, hrec]; simp [closedStc, hh]))
    have hpre : stcOf (setState st .preheat x) st = { cycleGone (stcOf s st) with state := .preheat } := by
      unfold setState
      rw [stcOf_modStc_self, hst]
    have band : allInBand (setState st .preheat x) st = allInBand s st :=
      allInBand_congr st htab (by rw [hpre]; rfl)
    rw [if_neg (by rw [show (cycleGone (stcOf s st)).heatReady = false from hh]; decide), idle]
    unfold startSettle
    rw [hpre, band]
    dsimp only
    by_cases hs : (stcOf s st).settle = none ∧ allInBand s st = true
    · obtain ⟨hn, hb⟩ := hs
      rw [if_pos (by simp [settleMayRun, cycleGone, hn, hb])]
      have hrecipe : recipeFor (setState st .preheat x) st = (stcOf s st).bound.map (vget s.tab.recipes) := by
        unfold recipeFor
        rw [hpre]
        simp only [cycleGone]
        rw [show (setState st .preheat x).tab = s.tab from htab]
      rw [hrecipe]
      cases hk : (stcOf s st).bound with
      | none => exact stays .preheat (by simp [closedStc, cycleGone, hh, hn, hk])
      | some k =>
        dsimp only [Option.map_some]
        rw [inState]
        exact modStc_congr st _ _ _ (by rw [hrec]; simp [closedStc, cycleGone, hh, hn, hb, hk, startTimer])
    · have hs' : ¬ (settleMayRun .preheat && (cycleGone (stcOf s st)).settle.isNone && allInBand s st) = true := by
        intro h
        simp only [Bool.and_eq_true, Option.isNone_iff_eq_none] at h
        exact hs ⟨h.1.2, h.2⟩
      rw [if_neg hs']
      exact stays .preheat (by simp only [closedStc, cycleGone, hh]; simp [hs])

/-! ### Records written before a close -/

/-- A close overwrites what was written of its record before. -/
theorem recordClosed_writes (x : Record) : recordClosed st cy i r (writes i x s) = recordClosed st cy i r s := by
  unfold recordClosed writes
  dsimp only
  rw [vset_vset, setLevel_spec, setLevel_spec]

theorem cycleClosed_writes (x : Record) : cycleClosed st cy i r (writes i x s) = cycleClosed st cy i r s :=
  congrArg (modStc st (closedStc s st)) (recordClosed_writes x)

/-- A record flagged ABORTED and closed (R83). -/
theorem closeCycle_aborted {x : Record} (hc : (stcOf s st).cycle = some cy) (ho : openIn s i cy.record r)
    (hx : x.number = r.number) : closeCycle st (setFlag st .aborted (writes i x s)) =
      cycleOpenTest st (cycleClosed st cy i { x with flags := x.flags ||| 1 } s) := by
  have ho' : openIn (writes i x s) i cy.record x := openIn_writes ho hx
  rw [setFlag_writes (s := writes i x s) hc ho' .aborted, writes_writes]
  have close := closeCycle_eq (s := writes i { x with flags := x.flags ||| (1#16 <<< recFlagNum .aborted) } s) hc
    (openIn_writes (x := { x with flags := x.flags ||| (1#16 <<< recFlagNum .aborted) }) ho hx)
  rw [cycleClosed_writes] at close
  exact close

/-! ### Leaving the scale (R133, R135) -/

/-- The record as the end of a session leaves it: an attempt begun is CANCELLED. -/
def cutRecord (u : Session) (r : Record) : Record :=
  { r with charge := if isAttempt u = true then r.charge.map fun p => { p with status := .cancelled, weight := 0 }
                     else r.charge }

theorem aborted_cutRecord (u : Session) : { cutRecord u r with flags := r.flags ||| 1 } = r.aborted (isAttempt u) := rfl

theorem cutSession_writes {u : Session} (hu : u.owner = st) (hc : (stcOf s st).cycle = some cy)
    (ho : openIn s i cy.record r) :
    cutSession u s = writes i (cutRecord u r) { s with scu := sessionless s.scu } := by
  have hcut : modOpenRecord u.owner (withChargeStatus .cancelled 0) (endSession s) =
      writes i { r with charge := r.charge.map fun p => { p with status := .cancelled, weight := 0 } }
        { s with scu := sessionless s.scu } := by
    rw [hu]
    exact modOpenRecord_writes (s := endSession s) hc (openIn_congr ho rfl) _
  have hkeep : endSession s = writes i r { s with scu := sessionless s.scu } :=
    (writes_self (s := endSession s) (openIn_congr ho rfl)).symm
  unfold cutSession cutRecord
  cases hs : u.state with
  | loading | settling | rejected =>
    rw [if_pos (by simp [isAttempt, hs])]
    exact hcut
  | clearing | accepted =>
    rw [if_neg (by simp [isAttempt, hs])]
    exact hkeep

/-- A station without the session leaves the scale. -/
theorem leaveScale_of_not_owner (h : ∀ u, s.scu.session = some u → u.owner ≠ st) :
    leaveScale st s = { s with scu := unclaimed st s.scu } := by
  unfold leaveScale
  cases hs : s.scu.session with
  | none => rfl
  | some u => exact if_neg (h u hs)

/-- The session's owner leaves the scale. -/
theorem leaveScale_of_owner {u : Session} (hs : s.scu.session = some u) (hu : u.owner = st)
    (hc : (stcOf s st).cycle = some cy) (ho : openIn s i cy.record r) :
    leaveScale st s = grantOldest (writes i (cutRecord u r) { s with scu := sessionless s.scu }) := by
  unfold leaveScale
  rw [hs]
  dsimp only
  rw [if_pos hu, cutSession_writes hu hc ho]

end Close

/-! ### A grant and the records of other stations -/

section Grant

variable {s : Block} {st o : Station} {cy : Cycle} {i j : Fin 48} {r w : Record}

theorem vset_comm {α : Type} {n : Nat} (v : Vector α n) {i j : Fin n} (h : i ≠ j) (x y : α) :
    vset (vset v i x) j y = vset (vset v j y) i x := by
  apply vget_ext
  intro k
  rw [vget_vset, vget_vset, vget_vset, vget_vset]
  split
  · next hj => rw [if_neg (fun hi => h (hi.trans hj.symm))]
  · rfl

theorem writes_comm (h : i ≠ j) : writes j w (writes i r s) = writes i r (writes j w s) := by
  unfold writes
  rw [vset_comm _ h]

theorem evaluated_writes (u : Session) : evaluated u (writes i r s) = writes i r (evaluated u s) := by
  rw [evaluated_eq, evaluated_eq]
  rfl

theorem attemptBegun_writes (u : Session) (h : i ≠ j) :
    attemptBegun u j w (writes i r s) = writes i r (attemptBegun u j w s) := by
  unfold attemptBegun
  dsimp only
  rw [← evaluated_writes, ← writes_comm h]
  rfl

/-- A grant leaves the records of other stations, and does not ask for them. -/
theorem granted_writes (h : i ≠ j) : granted o cy j w (writes i r s) = writes i r (granted o cy j w s) := by
  unfold granted
  dsimp only
  have hnet : filteredNet (writes i r s) = filteredNet s := rfl
  rw [hnet]
  by_cases he : s.scu.stable = true ∧ filteredNet s ≤ s.tab.line.emptyLimit
  · rw [if_pos he]
    exact (if_pos he).trans
      (attemptBegun_writes (s := { s with scu := { s.scu with claims := s.scu.claims.tail } }) _ h)
  · rw [if_neg he]
    refine (if_neg he).trans ?_
    by_cases hs : s.scu.stable = true
    · rw [if_pos hs]
      refine (if_pos hs).trans ?_
      rw [postWeigh_eq, postWeigh_eq] <;> rfl
    · rw [if_neg hs]
      exact if_neg hs

/-- The record as the beginning of an attempt leaves it: the charge part PENDING. -/
def begunRecord (u : Session) (w : Record) : Record :=
  { w with
    charge := some
      { attempts := u.attempts + 1, status := .pending, weight := 0, wait := (w.charge.map (·.wait)).getD 0 } }

/-- An attempt that begins changes the control queue, the Scale Unit and the record it writes. -/
theorem attemptBegun_spec (u : Session) : attemptBegun u j w s = { s with
    rpu := { s.rpu with controlQ := (attemptBegun u j w s).rpu.controlQ }, scu := (attemptBegun u j w s).scu
    hst := { s.hst with slots := vset s.hst.slots j (.held .opened (begunRecord u w)) } } := by
  unfold attemptBegun
  dsimp only
  rw [evaluated_eq]
  rfl

/-- What a grant changes: the control queue, the Scale Unit, and the record of the station granted, whose number stays. -/
theorem granted_spec (ho : openIn s j cy.record w) : ∃ w', w'.number = w.number ∧ granted o cy j w s = { s with
    rpu := { s.rpu with controlQ := (granted o cy j w s).rpu.controlQ }, scu := (granted o cy j w s).scu
    hst := { s.hst with slots := vset s.hst.slots j (.held .opened w') } } := by
  have key (x : Block) (hx : granted o cy j w s = x) : ∃ w', w'.number = w.number ∧ x = { s with
      rpu := { s.rpu with controlQ := x.rpu.controlQ }, scu := x.scu
      hst := { s.hst with slots := vset s.hst.slots j (.held .opened w') } } := by
    unfold granted at hx
    dsimp only at hx
    by_cases he : s.scu.stable = true ∧ filteredNet s ≤ s.tab.line.emptyLimit
    · rw [if_pos he] at hx
      obtain ⟨u, hu⟩ : ∃ u, attemptBegun u j w { s with scu := { s.scu with claims := s.scu.claims.tail } } = x := ⟨_, hx⟩
      rw [attemptBegun_spec] at hu
      refine ⟨begunRecord u w, rfl, ?_⟩
      rw [← hu]
    · rw [if_neg he] at hx
      refine ⟨w, rfl, ?_⟩
      rw [← ho.1, vset_vget]
      by_cases hs : s.scu.stable = true
      · rw [if_pos hs, postWeigh_eq] at hx
        rw [← hx]
      · rw [if_neg hs] at hx
        rw [← hx]
  exact key _ rfl

/-- A grant to another station leaves a station's record OPEN. -/
theorem openIn_granted {n : Nat} (ho : openIn s j cy.record w) (hr : openIn s i n r) (hn : cy.record ≠ n) :
    i ≠ j ∧ openIn (granted o cy j w s) i n r := by
  have hij : i ≠ j := fun h => hn (by
    rw [← ho.2.1, ← hr.2.1]
    have := ho.1.symm.trans (h ▸ hr.1)
    cases this
    rfl)
  obtain ⟨w', hw', hx⟩ := granted_spec (o := o) ho
  have hslots : (granted o cy j w s).hst.slots = vset s.hst.slots j (.held .opened w') := by rw [hx]
  refine ⟨hij, ?_⟩
  obtain ⟨h1, h2, h3⟩ := hr
  refine ⟨by rw [hslots, vget_vset_ne _ _ (Ne.symm hij)]; exact h1, h2, fun k hk => ?_⟩
  rw [hslots, vget_vset]
  split
  · show w'.number ≠ n
    rw [hw', ho.2.1]
    exact hn
  · exact h3 k hk

end Grant

/-! ### The end of a cycle from CHARGING and from PRESS_LOAD (R71, R83, R133) -/

section Ends

variable {s x : Block} {st : Station} {cy : Cycle} {i : Fin 48} {r : Record}

/-- A record number open in one slot and another number open elsewhere: the close of the first leaves the second. -/
theorem openIn_cycleClosed {n : Nat} {j : Fin 48} {w : Record} (c : Record) (hr : openIn s i cy.record r)
    (hw : openIn s j n w) (hn : n ≠ cy.record) (hnum : c.number = r.number) :
    openIn (cycleClosed st cy i c s) j n w := by
  have hij : j ≠ i := fun h => hn (by
    have same := hw.1.symm.trans (h ▸ hr.1)
    cases same
    exact hw.2.1.symm.trans hr.2.1)
  have hslots : (cycleClosed st cy i c s).hst.slots =
      vset s.hst.slots i (.held .closed (closedRecord cy c s.hst.lineTime)) := rfl
  obtain ⟨h1, h2, h3⟩ := hw
  refine ⟨by rw [hslots, vget_vset_ne _ _ (Ne.symm hij)]; exact h1, h2, fun k hk => ?_⟩
  rw [hslots, vget_vset]
  split
  · show c.number ≠ n
    rw [hnum, hr.2.1]
    exact Ne.symm hn
  · exact h3 k hk

/-- The DISCARD notice changes the control queue alone. -/
theorem discarded_spec : discarded st s = { s with rpu := { s.rpu with controlQ := (discarded st s).rpu.controlQ } } := by
  unfold discarded
  split
  · rw [postWeigh_eq]
  · rfl

theorem discarded_pressLoad (h : (stcOf s st).state = .pressLoad) : postDiscard st s = discarded st s := by
  unfold postDiscard discarded
  rw [h]
  cases s.scu.accepted.get st <;> rfl

theorem discarded_charging (h : (stcOf s st).state = .charging) : discarded st s = s := by
  unfold discarded
  rw [h]

/-- What ends a cycle in CHARGING or PRESS_LOAD. -/
theorem endFrom_discarded (h : (stcOf s st).state = .charging ∨ (stcOf s st).state = .pressLoad) :
    cancelled st s = endFromCharging st (discarded st s) ∧ abortEffect st s = endFromCharging st (discarded st s) := by
  unfold cancelled abortEffect stateOf
  rcases h with h | h <;> rw [h]
  · rw [discarded_charging h]
    exact ⟨rfl, rfl⟩
  · dsimp only
    unfold endFromPressLoad
    rw [discarded_pressLoad h]
    exact ⟨rfl, rfl⟩

/-- The end of a cycle whose station has no session. -/
theorem endFromCharging_unclaimed (hc : (stcOf s st).cycle = some cy) (ho : openIn s i cy.record r)
    (h : ∀ u, s.scu.session = some u → u.owner ≠ st) : endFromCharging st s =
      cycleOpenTest st (cycleClosed st cy i (r.aborted false) { s with scu := unclaimed st s.scu }) := by
  have ho' : openIn { s with scu := unclaimed st s.scu } i cy.record r := openIn_congr ho rfl
  have close := closeCycle_aborted (s := { s with scu := unclaimed st s.scu }) (st := st) (x := r) hc ho' rfl
  rw [writes_self ho'] at close
  unfold endFromCharging
  rw [leaveScale_of_not_owner h]
  exact close

/-- The end of a cycle whose station has the session, with no claim waiting. -/
theorem endFromCharging_sessionless {u : Session} (hc : (stcOf s st).cycle = some cy) (ho : openIn s i cy.record r)
    (hs : s.scu.session = some u) (hu : u.owner = st) (hq : s.scu.claims = []) : endFromCharging st s =
      cycleOpenTest st (cycleClosed st cy i (r.aborted (isAttempt u)) { s with scu := sessionless s.scu }) := by
  unfold endFromCharging
  rw [leaveScale_of_owner hs hu hc ho,
    grantOldest_idle (s := writes i (cutRecord u r) { s with scu := sessionless s.scu }) (.inr hq)]
  exact closeCycle_aborted (s := { s with scu := sessionless s.scu }) (st := st) (x := cutRecord u r) hc
    (openIn_congr ho rfl) rfl

/-- The end of a cycle whose station has the session, with the claim granted that waits longest. -/
theorem endFromCharging_granted {u : Session} {o : Station} {rest : List Station} {cy' : Cycle} {j : Fin 48} {w : Record}
    (hc : (stcOf s st).cycle = some cy) (ho : openIn s i cy.record r) (hs : s.scu.session = some u) (hu : u.owner = st)
    (hq : s.scu.claims = o :: rest) (hy : (stcOf s o).cycle = some cy') (hw : openIn s j cy'.record w)
    (hn : cy'.record ≠ cy.record) : endFromCharging st s =
      cycleOpenTest st (cycleClosed st cy i (r.aborted (isAttempt u))
        (granted o cy' j w { s with scu := sessionless s.scu })) := by
  have ho' : openIn { s with scu := sessionless s.scu } i cy.record r := openIn_congr ho rfl
  have hw' : openIn { s with scu := sessionless s.scu } j cy'.record w := openIn_congr hw rfl
  obtain ⟨hij, hog⟩ := openIn_granted (o := o) hw' ho' hn
  obtain ⟨w', -, hg⟩ := granted_spec (o := o) hw'
  have hwx : openIn (writes i (cutRecord u r) { s with scu := sessionless s.scu }) j cy'.record w := by
    obtain ⟨h1, h2, h3⟩ := hw'
    refine ⟨(vget_vset_ne _ _ hij).trans h1, h2, fun k hk => ?_⟩
    show slotNumber (vget (vset s.hst.slots i (.held .opened (cutRecord u r))) k) ≠ _
    rw [vget_vset]
    split
    · exact fun h => hn (h.symm.trans ho.2.1)
    · exact h3 k hk
  unfold endFromCharging
  rw [leaveScale_of_owner hs hu hc ho,
    grantOldest_granted (s := writes i (cutRecord u r) { s with scu := sessionless s.scu }) rfl hq hy hwx,
    granted_writes hij]
  exact closeCycle_aborted (st := st) (x := cutRecord u r) (by rw [hg]; exact hc) hog rfl

/-! ### The event that closes a cycle -/

theorem stcOf_cycleClosed (c : Record) : stcOf (cycleClosed st cy i c x) st = closedStc x st (stcOf x st) := by
  have hclosed : cycleClosed st cy i c x = modStc st (closedStc x st) (recordClosed st cy i c x) := rfl
  rw [hclosed, stcOf_modStc_self, recordClosed_eq]
  rfl

theorem stcOf_cycleClosed_other (c : Record) :
    stcOf (cycleClosed st cy i c x) (otherStation st) = stcOf x (otherStation st) := by
  have hclosed : cycleClosed st cy i c x = modStc st (closedStc x st) (recordClosed st cy i c x) := rfl
  rw [hclosed, stcOf_modStc_other, recordClosed_eq]
  rfl

theorem cycleClosed_tab (c : Record) : (cycleClosed st cy i c x).tab = x.tab := by
  have hclosed : cycleClosed st cy i c x = modStc st (closedStc x st) (recordClosed st cy i c x) := rfl
  rw [hclosed, recordClosed_eq]
  rfl

theorem cycleClosed_zrg (c : Record) : (cycleClosed st cy i c x).zrg = x.zrg := by
  have hclosed : cycleClosed st cy i c x = modStc st (closedStc x st) (recordClosed st cy i c x) := rfl
  rw [hclosed, recordClosed_eq]
  rfl

/-- A cycle that stays closed takes no test. -/
theorem cycleOpenTest_cycleClosed {c : Record} (hx : stcOf x st = stcOf s st) (h : staysClosed st cy s) :
    cycleOpenTest st (cycleClosed st cy i c x) = cycleClosed st cy i c x := by
  apply cycleOpenTest_idle
  rw [stcOf_cycleClosed, hx]
  obtain ⟨-, -, h | h⟩ := h
  · exact .inr h
  · exact .inl (by simp [closedStc, h])

/-- An event that closes a cycle and does nothing else to the stations posts the PERMIT with both permits clear. -/
theorem event_closed {f : Block → Block} {y : Block} {c : Record} (hf : f s = y)
    (hy : y.stc = (cycleClosed st cy i c x).stc) (hx : x.stc = s.stc) (htab : y.tab = s.tab)
    (hz : y.zrg.zones = s.zrg.zones) (hm : mayClose st cy i r s) (h : staysClosed st cy s) :
    event f s = postPermit st y := by
  have stcx (k : Station) : stcOf x k = stcOf s k := by unfold stcOf; rw [hx]
  have stcy (k : Station) : stcOf y k = stcOf (cycleClosed st cy i c x) k := by unfold stcOf; rw [hy]
  have self : stcOf y st = closedStc x st (stcOf s st) := by rw [stcy, stcOf_cycleClosed, stcx]
  have other : stcOf y (otherStation st) = stcOf s (otherStation st) := by rw [stcy, stcOf_cycleClosed_other, stcx]
  obtain ⟨hc, -, hstate⟩ := hm
  obtain ⟨hn, hheld, -⟩ := h
  have hgone := stcOf_modStc_self s st fun c => { c with cycle := none }
  have warm : (stcOf s st).state ≠ .off ∧ (stcOf s st).state ≠ .standby := by
    rcases hstate with h | h <;> rw [h] <;> decide
  have targets : targetsHeld y st := by
    refine targetsHeld_warm (s := modStc st (fun c => { c with cycle := none }) s) htab (fun z => ?_) ?_ ?_ ?_ ?_ hheld
    · unfold zoneOf; rw [hz]; rfl
    · rw [hgone]; exact warm
    · rw [self]; unfold closedStc; dsimp only; split <;> decide
    · rw [self, hgone]; rfl
    · rw [self, hgone]; rfl
  rw [← hf] at other self targets ⊢
  have posts := event_posts (f := f) (s := s) fun k => by
    refine station_cases (P := fun k => targetsHeld (f s) k ∨ ((stcOf (f s) k).state = (stcOf s k).state ∧
      permitRecord (f s) k = permitRecord s k)) st (.inl targets) (.inr ⟨by rw [other], ?_⟩) k
    unfold permitRecord
    rw [other]
  rw [posts]
  refine (postPermits_eq s (f s)).2.1 st (fun hp => ?_) ?_
  · have hrec : permitRecord (f s) st = permitRecord s st := congrArg (fun p => p.2.2) hp
    unfold permitRecord at hrec
    rw [self, hc] at hrec
    exact hn hrec.symm
  · apply permitOf_congr <;> rw [other]

end Ends

end Sys2Proof.Machine
end

section
/-! PROOFS. The exit from CURING, ABORT_CYCLE and CANCEL: O34 and O38. -/

namespace Sys2Proof.Machine

open Sys2Proof

section Curing

variable {s x : Block} {st : Station} {cy k : Cycle} {i : Fin 48} {r w : Record}

/-! ### Leaving CURING (R74, R76, R78) -/

/-- A record with OUT_OF_BAND set where the out-of-band time is past the allowance (R76). -/
def judgedRecord (cy : Cycle) (r : Record) : Record :=
  { r with flags := if allowanceBroken cy = true then r.flags ||| 64 else r.flags }

/-- A cycle with every count and timer of its cure stopped. -/
def stoppedCycle (cy : Cycle) : Cycle :=
  { cy with accruing := false, accrualUp := false, outCounting := false, elapsedRunning := false }

/-- A record with the cure part written as CURING is left. -/
def curedRecord (cy : Cycle) (r : Record) : Record :=
  { judgedRecord cy r with cure := r.cure.map (withCure cy) }

theorem judgeAllowance_writes (hc : (stcOf s st).cycle = some cy) (ho : openIn s i cy.record r) :
    judgeAllowance st s = writes i (judgedRecord cy r) s := by
  unfold judgeAllowance judgedRecord
  rw [hc]
  dsimp only
  split
  · exact setFlag_writes hc ho _
  · exact (writes_self ho).symm

theorem exitCuring_writes (hc : (stcOf s st).cycle = some cy) (ho : openIn s i cy.record r) :
    exitCuring st s =
      writes i (curedRecord cy r) (modStc st (fun c => { c with cycle := some (stoppedCycle cy) }) s) := by
  have ho' : openIn (writes i (judgedRecord cy r) s) i cy.record (judgedRecord cy r) := openIn_writes ho rfl
  unfold exitCuring
  rw [hc]
  dsimp only
  rw [judgeAllowance_writes hc ho, modCycle_eq (s := writes i (judgedRecord cy r) s) hc]
  have cured := modOpenRecord_writes (st := st) (cy := stoppedCycle cy) (i := i) (r := judgedRecord cy r)
    (s := modStc st (fun c => { c with cycle := some (stoppedCycle cy) }) (writes i (judgedRecord cy r) s))
    (congrArg (fun c => c.cycle) (stcOf_modStc_self (writes i (judgedRecord cy r) s) st _)) (openIn_congr ho' rfl)
    (fun r => { r with cure := r.cure.map (withCure cy) })
  exact cured.trans
    (writes_writes i _ (judgedRecord cy r) (modStc st (fun c => { c with cycle := some (stoppedCycle cy) }) s))

/-- The station's context as CURING ends in OPENING. -/
def openedStc (cy : Cycle) (c : Stc) : Stc :=
  { c with state := .opening, openOk := true, cycle := some (stoppedCycle cy) }

theorem enterOpening_writes (hc : (stcOf s st).cycle = some cy) (ho : openIn s i cy.record r) :
    enterOpening st s = writes i (curedRecord cy r) (modStc st (openedStc cy) s) := by
  unfold enterOpening
  rw [exitCuring_writes hc ho, modStc_writes, modStc_modStc]
  rfl

/-- Targets that are not left to move stay so while the recipe in force stays. -/
theorem targetsHeld_recipe {q : Recipe} (htab : x.tab = s.tab) (hz : ∀ z, zoneOf x z = zoneOf s z)
    (hs : (stcOf s st).state ≠ .off ∧ (stcOf s st).state ≠ .standby)
    (hx : (stcOf x st).state ≠ .off ∧ (stcOf x st).state ≠ .standby)
    (hr : recipeFor s st = some q) (hrx : recipeFor x st = some q) (h : targetsHeld s st) : targetsHeld x st := by
  intro z hmem hin
  rw [zonesOf_congr st htab] at hmem
  have hzs : (entryOf s z).station = st := ((mem_zonesOf s st z).mp hmem).2
  have he : entryOf x z = entryOf s z := by rw [entryOf, htab, entryOf]
  have held := h z hmem (by rw [← hz]; exact hin)
  rw [zoneTarget_heat hzs hs.1 hs.2 hr] at held
  rw [zoneTarget_heat (by rw [he]; exact hzs) hx.1 hx.2 hrx, he, hz]
  exact held

theorem recipeFor_cycle (hc : (stcOf s st).cycle = some cy) : recipeFor s st = some cy.recipe := by
  unfold recipeFor
  rw [hc]

/-- An event that takes a station from CURING to OPENING posts the PERMIT, where OPEN_OK was clear. -/
theorem event_opened {f : Block → Block} (hf : f s = writes i w (modStc st (openedStc k) s))
    (hc : (stcOf s st).cycle = some cy) (hn : k.record = cy.record) (hk : k.recipe = cy.recipe)
    (hs : (stcOf s st).state = .curing) (h : targetsHeld s st) :
    event f s = if (stcOf s st).openOk = true then f s else postPermit st (f s) := by
  have self : stcOf (f s) st = openedStc k (stcOf s st) := by
    rw [hf]
    exact stcOf_modStc_self s st _
  have other : stcOf (f s) (otherStation st) = stcOf s (otherStation st) := by
    rw [hf]
    exact stcOf_modStc_other s st _
  have hcx : (stcOf (f s) st).cycle = some (stoppedCycle k) := by rw [self]; rfl
  have hopen : (stcOf (f s) st).state = .opening := by rw [self]; rfl
  have held : targetsHeld (f s) st :=
    targetsHeld_recipe (by rw [hf]; rfl) (fun z => by rw [hf]; rfl) (by rw [hs]; decide) (by rw [hopen]; decide)
      (recipeFor_cycle hc) ((recipeFor_cycle hcx).trans (congrArg some hk)) h
  have close : (stcOf (f s) st).closeOk = (stcOf s st).closeOk := by rw [self]; rfl
  have record : permitRecord (f s) st = permitRecord s st := by
    unfold permitRecord
    rw [hcx, hc]
    exact hn
  by_cases ho : (stcOf s st).openOk = true
  · rw [if_pos ho]
    refine event_of_targetsHeld f s st other ?_ held
    unfold permitOf
    rw [close, record, self, ho]
    rfl
  · rw [if_neg ho, event_posts fun y => ?_]
    · refine (postPermits_eq s (f s)).2.1 st (fun hp => ho ?_) (by apply permitOf_congr <;> rw [other])
      have hpen := congrArg (fun p => p.2.1) hp
      unfold permitOf at hpen
      rw [self] at hpen
      exact hpen.symm
    · refine station_cases (P := fun y => targetsHeld (f s) y ∨ ((stcOf (f s) y).state = (stcOf s y).state ∧
        permitRecord (f s) y = permitRecord s y)) st (.inl held) (.inr ⟨by rw [other], ?_⟩) y
      unfold permitRecord
      rw [other]

end Curing

/-! ### ABORT_CYCLE (R83) -/

section Abort

variable {s : Block} {st : Station} {cy : Cycle} {i : Fin 48} {r : Record}

theorem ownAbort_refuses (h : isCycleState (stcOf s st).state = false ∨ (stcOf s st).state = .held) :
    ownAbort st s = refuse .notAllowed s := by
  unfold ownAbort stateOf
  rcases h with h | h
  · cases hs : (stcOf s st).state <;> rw [hs] at h <;> first | rfl | exact absurd h (by decide)
  · rw [h]

theorem ownAbort_takes (h : isCycleState (stcOf s st).state = true) (hh : (stcOf s st).state ≠ .held) :
    ownAbort st s = accept (event (abortEffect st) s) := by
  unfold ownAbort stateOf
  cases hs : (stcOf s st).state <;> rw [hs] at h hh <;> first | rfl | exact absurd h (by decide) | exact absurd rfl hh

theorem abortEffect_of_opening (h : (stcOf s st).state = .opening) : abortEffect st s = setFlag st .aborted s := by
  unfold abortEffect stateOf
  rw [h]

theorem abortEffect_of_demoulding (h : (stcOf s st).state = .demoulding) :
    abortEffect st s = abortDms st (setFlag st .aborted s) := by
  unfold abortEffect stateOf
  rw [h]

theorem abortEffect_of_curing (h : (stcOf s st).state = .curing) :
    abortEffect st s = enterOpening st (setFlag st .aborted s) := by
  unfold abortEffect stateOf
  rw [h]

/-- An event that leaves every station's context does nothing of its own. -/
theorem event_keeps_stc {f : Block → Block} {x : Block} (hf : f s = x) (hx : x.stc = s.stc) : event f s = x := by
  rw [event_of_stc f s (by rw [hf]; exact hx), hf]

/-- An event that halts a station's sequencer and leaves the targets of its zones. -/
theorem event_haltedAt {f : Block → Block} {x : Block} {cause : HaltCause} {stuck : BitVec 8} {resume : Resume}
    (hf : f s = haltedAt st cause stuck resume x) (hx : x.stc = s.stc) (htab : x.tab = s.tab) (hz : x.zrg = s.zrg)
    (hs : (stcOf s st).state ≠ .off ∧ (stcOf s st).state ≠ .standby) (h : targetsHeld s st) :
    event f s = haltedAt st cause stuck resume x := by
  have halted : ∃ y : Block, haltedAt st cause stuck resume x = y ∧ y.tab = x.tab ∧ y.zrg = x.zrg ∧
      y.stc = (modStc st (fun c => { c with state := .held }) x).stc := by
    refine ⟨_, rfl, ?_, ?_, ?_⟩ <;> unfold haltedAt <;> rw [setLevel_spec] <;> rfl
  obtain ⟨y, hy, hyt, hyz, hys⟩ := halted
  rw [hy] at hf ⊢
  have stcy (k : Station) : stcOf y k = stcOf (modStc st (fun c => { c with state := .held }) x) k := by
    unfold stcOf
    rw [hys]
  have stcx (k : Station) : stcOf x k = stcOf s k := by unfold stcOf; rw [hx]
  have self : stcOf y st = { stcOf s st with state := .held } := by rw [stcy, stcOf_modStc_self, stcx]
  have other : stcOf y (otherStation st) = stcOf s (otherStation st) := by rw [stcy, stcOf_modStc_other, stcx]
  have held : targetsHeld y st := by
    refine targetsHeld_warm (by rw [hyt, htab]) (fun z => ?_) hs ?_ ?_ ?_ h
    · unfold zoneOf; rw [hyz, hz]
    · rw [self]; exact ⟨by simp, by simp⟩
    · rw [self]
    · rw [self]
  rw [← hf] at self other held ⊢
  exact event_of_targetsHeld f s st other (by apply permitOf_congr <;> rw [self]) held

/-- Settles O34: the refusal outside a cycle, the abort in each state of one, and the close. -/
theorem abortCycle : Obligations.AbortCycle := by
  intro q sb arg st s s1 hadm hst c d ends flagged
  have answers {status : Status} {body : List Byte} {b : Block}
      (h : ownAbort st s1 = { status := status, body := body, after := b }) : ends status body b :=
    station_answers rfl hadm hst h
  have takes {y : StationState} {b : Block} (hs : (stcOf s1 st).state = y) (hy : isCycleState y = true) (hn : y ≠ .held)
      (h : event (abortEffect st) s1 = b) : ends .ok [] b := by
    refine answers ?_
    rw [ownAbort_takes (hs ▸ hy) (hs ▸ hn), h]
    rfl
  refine ⟨fun h => answers (ownAbort_refuses h), ?_, ?_⟩
  · intro cy i r hc ho hheld
    have flag : setFlag st .aborted s1 = writes i (flagged r) s1 := setFlag_writes hc ho _
    refine ⟨fun hs => ?_, fun hs hp => ?_, fun hs hp hd => ?_, fun hs hp hd => ?_, fun hs => ?_⟩
    · exact takes hs rfl (by decide) (event_keeps_stc ((abortEffect_of_opening hs).trans flag) rfl)
    · refine takes hs rfl (by decide) (event_keeps_stc ((abortEffect_of_demoulding hs).trans ?_) rfl)
      rw [flag]
      exact if_pos hp
    · have halts : abortEffect st s1 = haltedAt st .abort 0 d.resume (writes i (flagged r) s1) := by
        refine (abortEffect_of_demoulding hs).trans ?_
        rw [flag, ← halt_haltedAt st .abort 0 d.resume _ rfl]
        refine (if_neg ?_).trans (if_pos hd)
        rw [show (dmsOf (writes i (flagged r) s1) st).abortPending = false from hp]
        decide
      have hstate : (stcOf s1 st).state = .demoulding := hs
      exact takes hs rfl (by decide) (event_haltedAt halts rfl rfl rfl (by rw [hstate]; decide) hheld)
    · refine takes hs rfl (by decide) (event_keeps_stc ((abortEffect_of_demoulding hs).trans ?_) rfl)
      rw [flag]
      refine (if_neg ?_).trans (if_neg hd)
      rw [show (dmsOf (writes i (flagged r) s1) st).abortPending = false from hp]
      decide
    · intro cured y
      have opens : abortEffect st s1 = y := by
        refine (abortEffect_of_curing hs).trans ?_
        rw [flag, enterOpening_writes (s := writes i (flagged r) s1) hc (openIn_writes ho rfl), modStc_writes,
          writes_writes]
        refine congrArg (fun w => writes i w _) ?_
        unfold curedRecord judgedRecord
        have broken : allowanceBroken cy = true ↔
            cy.recipe.allowance * 1000 < cy.outOfBand ∨ (cy.outCounting = true ∧ cy.recipe.allowance = 0) := by
          simp [allowanceBroken]
        simp only [broken]
        rfl
      refine takes hs rfl (by decide) ?_
      rw [event_opened (k := cy) opens hc rfl rfl hs hheld, opens]
  · intro cy i r hm closes x
    obtain ⟨hc, ho, hstate⟩ := hm
    have hx : x = { s1 with rpu := { s1.rpu with controlQ := x.rpu.controlQ } } := discarded_spec
    have scu : x.scu = s1.scu := by rw [hx]
    have hcx : (stcOf x st).cycle = some cy := by rw [hx]; exact hc
    have hox : openIn x i cy.record r := openIn_congr ho (by rw [hx])
    have closing {cut : Bool} {y : Block} (hy : abortEffect st s1 = cycleOpenTest st (cycleClosed st cy i (r.aborted cut) y))
        (hstc : y.stc = s1.stc) (htab : y.tab = s1.tab) (hzrg : y.zrg = s1.zrg) : closes cut y := by
      have ended {b : Block} (h : event (abortEffect st) s1 = b) : ends .ok [] b := by
        rcases hstate with hs | hs
        · exact takes hs rfl (by decide) h
        · exact takes hs rfl (by decide) h
      refine ⟨ended (event_congr hy), fun hstays => ended ?_⟩
      have hys : stcOf y st = stcOf s1 st := by unfold stcOf; rw [hstc]
      exact event_closed (hy.trans (cycleOpenTest_cycleClosed hys hstays)) rfl hstc
        ((cycleClosed_tab _).trans htab) (congrArg (fun z => z.zones) ((cycleClosed_zrg _).trans hzrg)) ⟨hc, ho, hstate⟩ hstays
    have effect := (endFrom_discarded hstate).2
    refine ⟨fun hs => ?_, fun u hs hu => ⟨fun hq => ?_, fun o rest cy' j w hq hy hw hn => ?_⟩⟩
    · refine closing (effect.trans ?_) (by rw [hx]) (by rw [hx]) (by rw [hx])
      refine (endFromCharging_unclaimed hcx hox (by rw [scu]; exact hs)).trans ?_
      rw [scu]
    · refine closing (effect.trans ?_) (by rw [hx]) (by rw [hx]) (by rw [hx])
      refine (endFromCharging_sessionless hcx hox (scu ▸ hs) hu (scu ▸ hq)).trans ?_
      rw [scu]
    · have hwx : openIn x j cy'.record w := openIn_congr hw (by rw [hx])
      have hyx : (stcOf x o).cycle = some cy' := by rw [hx]; exact hy
      obtain ⟨w', -, hg⟩ := granted_spec (o := o) (s := { x with scu := sessionless s1.scu }) (openIn_congr hwx rfl)
      refine closing (effect.trans ?_) (by rw [hg, hx]) (by rw [hg, hx]) (by rw [hg, hx])
      refine (endFromCharging_granted hcx hox (scu ▸ hs) hu (scu ▸ hq) hyx hwx hn).trans ?_
      rw [scu]

end Abort

end Sys2Proof.Machine
end

section
/-! PROOFS. CANCEL: O38. -/

namespace Sys2Proof.Machine

open Sys2Proof

section Cancel

variable {s x y : Block} {st : Station} {cy : Cycle} {i : Fin 48} {r : Record}

/-! ### What a cancellation leaves of the scale (R133) -/

/-- The notice of a discarded charge does not ask for the rest of the Scale Unit. -/
theorem discarded_scu (v : Scu) (h : v.accepted = s.scu.accepted) :
    discarded st { s with scu := v } = { discarded st s with scu := v } := by
  have hst : stcOf { s with scu := v } st = stcOf s st := rfl
  unfold discarded
  rw [hst]
  dsimp only
  rw [h]
  cases (stcOf s st).state with
  | pressLoad =>
    cases s.scu.accepted.get st with
    | none => rfl
    | some a =>
      dsimp only
      rw [postWeigh_eq, postWeigh_eq] <;> rfl
  | off | standby | preheat | ready | charging | curing | opening | demoulding | held => rfl

theorem discarded_writes (w : Record) : discarded st (writes i w s) = writes i w (discarded st s) := by
  have hst : stcOf (writes i w s) st = stcOf s st := rfl
  have hscu : (writes i w s).scu = s.scu := rfl
  unfold discarded
  rw [hst, hscu]
  cases (stcOf s st).state with
  | pressLoad =>
    cases s.scu.accepted.get st with
    | none => rfl
    | some a =>
      dsimp only
      rw [postWeigh_eq, postWeigh_eq] <;> rfl
  | off | standby | preheat | ready | charging | curing | opening | demoulding | held => rfl

/-- The cycle of a station that loses its claim, closed. -/
def cancelledClaim (st : Station) (cy : Cycle) (i : Fin 48) (r : Record) (x : Block) : Block :=
  cycleClosed st cy i (r.aborted false) { discarded st x with scu := unclaimed st x.scu }

/-- The cycle of a station that loses its session, closed. -/
def cancelledSession (st : Station) (cy : Cycle) (i : Fin 48) (r : Record) (u : Session) (x : Block) : Block :=
  cycleClosed st cy i (r.aborted (isAttempt u)) { discarded st x with scu := sessionless (unclaimed st x.scu) }

theorem unclaimed_unclaimed (v : Scu) : unclaimed st (unclaimed st v) = unclaimed st v := by
  unfold unclaimed
  rw [List.filter_filter]
  simp

theorem cancelled_withdrawClaim (hm : mayClose st cy i r x) (h : ∀ u, x.scu.session = some u → u.owner ≠ st) :
    cancelled st (withdrawClaim st x) = cycleOpenTest st (cancelledClaim st cy i r x) := by
  obtain ⟨hc, ho, hstate⟩ := hm
  have withdrawn : withdrawClaim st x = { x with scu := unclaimed st x.scu } := rfl
  have hd := discarded_spec (st := st) (s := { x with scu := unclaimed st x.scu })
  rw [discarded_scu (s := x) (st := st) (unclaimed st x.scu) rfl] at hd
  rw [withdrawn, (endFrom_discarded (s := { x with scu := unclaimed st x.scu }) hstate).1,
    discarded_scu (s := x) (unclaimed st x.scu) rfl]
  have ends := endFromCharging_unclaimed (s := { discarded st x with scu := unclaimed st x.scu }) (st := st) (cy := cy)
    (i := i) (r := r) (by rw [hd]; exact hc) (openIn_congr ho (by rw [hd])) h
  dsimp only at ends
  rw [unclaimed_unclaimed] at ends
  exact ends

theorem cancelled_cutSession {u : Session} (hm : mayClose st cy i r x) (hu : u.owner = st) :
    cancelled st (cutSession u x) = cycleOpenTest st (cancelledSession st cy i r u x) := by
  obtain ⟨hc, ho, hstate⟩ := hm
  have hd := discarded_spec (st := st) (s := x)
  have cut := cutSession_writes hu hc ho
  let v : Block := { discarded st x with scu := sessionless x.scu }
  have hv : discarded st (cutSession u x) = writes i (cutRecord u r) v := by
    rw [cut, discarded_writes, discarded_scu (s := x) (sessionless x.scu) rfl]
  have hcv : (stcOf v st).cycle = some cy := by
    have hstc : v.stc = x.stc := by show (discarded st x).stc = x.stc; rw [hd]
    unfold stcOf
    rw [hstc]
    exact hc
  have hov : openIn v i cy.record r := openIn_congr ho (by show (discarded st x).hst.slots = x.hst.slots; rw [hd])
  have hstate' : (stcOf (cutSession u x) st).state = .charging ∨ (stcOf (cutSession u x) st).state = .pressLoad := by
    rw [cut]
    exact hstate
  rw [(endFrom_discarded hstate').1, hv]
  have ends := endFromCharging_unclaimed (s := writes i (cutRecord u r) v) (st := st) (cy := cy) (i := i)
    (r := cutRecord u r) hcv (openIn_writes hov rfl) (fun u' hu' => by cases hu')
  have record : (cutRecord u r).aborted false = r.aborted (isAttempt u) := rfl
  rw [record] at ends
  exact ends.trans (congrArg (cycleOpenTest st) (cycleClosed_writes (st := st) (cy := cy) (i := i)
    (r := r.aborted (isAttempt u)) (s := { discarded st x with scu := sessionless (unclaimed st x.scu) }) (cutRecord u r)))

/-! ### The session under the test of a station (R134) -/

theorem cycleOpenTest_session (h : s.scu.session ≠ none) : (cycleOpenTest st s).scu.session = s.scu.session := by
  have noCycle (c : NoCycle) : (setNoCycle st c s).scu.session = s.scu.session := by
    rw [show (setNoCycle st c s).scu = s.scu by rw [heatOnly_setNoCycle st c s]]
  unfold cycleOpenTest
  dsimp only
  split
  · split
    · exact noCycle _
    · exact noCycle _
    · exact noCycle _
    · next i n k _ _ _ =>
      split
      · next steps _ =>
        have same : (cycleOpened st k steps i n s).scu.session = s.scu.session := rfl
        rw [openCycle_eq, grantOldest_idle (.inl (by rw [same]; exact h)), same]
      · exact noCycle _
  · rfl

/-- The session of another station outlasts the cancellation of a claim. -/
theorem session_cancelledClaim (h : x.scu.session ≠ none) :
    (arbitrate (event (fun _ => cycleOpenTest st (cancelledClaim st cy i r x)) x)).scu.session = x.scu.session := by
  have heat := event_spec (fun _ => cycleOpenTest st (cancelledClaim st cy i r x)) x
  have same : (cancelledClaim st cy i r x).scu.session = x.scu.session := rfl
  rw [arbitrate_scu, show (event (fun _ => cycleOpenTest st (cancelledClaim st cy i r x)) x).scu =
    (cycleOpenTest st (cancelledClaim st cy i r x)).scu by rw [heat], cycleOpenTest_session (by rw [same]; exact h), same]

/-! ### The stations a CANCEL names -/

theorem cancelNames_none {sb : Byte} (h0 : sb ≠ 0) (h1 : sb ≠ 1) (h255 : sb ≠ 255) : cancelNames sb.toNat = none := by
  have n0 : sb.toNat ≠ 0 := fun h => h0 (BitVec.eq_of_toNat_eq h)
  have n1 : sb.toNat ≠ 1 := fun h => h1 (BitVec.eq_of_toNat_eq h)
  have n255 : sb.toNat ≠ 255 := fun h => h255 (BitVec.eq_of_toNat_eq h)
  unfold cancelNames
  split
  · next h => exact absurd h n0
  · next h => exact absurd h n1
  · next h => exact absurd h n255
  · rfl

/-- The stations a CANCEL names, as a list. -/
theorem cancelNames_named {sb : Byte} (h : sb = 255 ∨ stationOf sb.toNat = some st) :
    ∃ names, cancelNames sb.toNat = some names ∧ st ∈ names ∧
      ∀ p : Station → Bool, (sb = 255 → p (otherStation st) = false) → names.filter p = [st].filter p := by
  rcases h with h | h
  · refine ⟨[.a, .b], by rw [h]; rfl, by cases st <;> decide, fun p hp => ?_⟩
    have hq := hp h
    cases st with
    | a => simp [List.filter_cons, show p .b = false from hq]
    | b => simp [List.filter_cons, show p .a = false from hq]
  · refine ⟨[st], ?_, List.mem_singleton_self st, fun _ _ => rfl⟩
    unfold stationOf at h
    split at h
    · next hz => cases h; rw [hz]; rfl
    · next hz => cases h; rw [hz]; rfl
    · cases h

theorem otherStation_otherStation (st : Station) : otherStation (otherStation st) = st := by cases st <;> rfl

theorem filter_both {p : Station → Bool} (h : p st = true) (h' : p (otherStation st) = false) :
    [Station.a, .b].filter p = [st] := by
  cases st with
  | a => simp [h, show p .b = false from h']
  | b => simp [h, show p .a = false from h']

theorem ownsSession_iff : ownsSession st s = true ↔ ∃ u, s.scu.session = some u ∧ u.owner = st := by
  unfold ownsSession
  cases s.scu.session <;> simp

theorem hasClaim_iff : hasClaim s st = true ↔ st ∈ s.scu.claims := decide_eq_true_iff

/-! ### The events of a CANCEL (R133, log 18) -/

theorem cancelClaim_eq (hm : mayClose st cy i r x) (hw : st ∈ x.scu.claims)
    (h : ∀ u, x.scu.session = some u → u.owner ≠ st) :
    cancelClaim st x = arbitrate (event (fun _ => cycleOpenTest st (cancelledClaim st cy i r x)) x) := by
  refine (if_pos (hasClaim_iff.mpr hw)).trans (congrArg arbitrate ?_)
  exact event_congr (cancelled_withdrawClaim hm h)

theorem cancelSession_eq {u : Session} (hm : mayClose st cy i r x) (hs : x.scu.session = some u) (hu : u.owner = st) :
    cancelSession st x =
      arbitrate (event (fun _ => grantOldest (cycleOpenTest st (cancelledSession st cy i r u x))) x) := by
  unfold cancelSession
  rw [hs]
  refine (if_pos hu).trans (congrArg arbitrate ?_)
  exact event_congr (congrArg grantOldest (cancelled_cutSession hm hu))

/-- An event that closes the cycle of a station that leaves the scale. -/
theorem event_cancelled {f : Block → Block} {y : Block} {v : Scu} {c : Record} (hf : f x = y)
    (hstc : y.stc = (cycleClosed st cy i c { discarded st x with scu := v }).stc) (htab : y.tab = x.tab)
    (hz : y.zrg = x.zrg) (hm : mayClose st cy i r x) (h : staysClosed st cy x) : event f x = postPermit st y :=
  event_closed hf hstc (by show (discarded st x).stc = x.stc; rw [discarded_spec]) htab
    (congrArg (fun z => z.zones) hz) hm h

/-- The block in which a claim or a session ends keeps tables, zones and stations up to the close. -/
theorem cycleClosed_discarded (v : Scu) (c : Record) :
    (cycleClosed st cy i c { discarded st x with scu := v }).tab = x.tab ∧
    (cycleClosed st cy i c { discarded st x with scu := v }).zrg = x.zrg := by
  refine ⟨(cycleClosed_tab c).trans ?_, (cycleClosed_zrg c).trans ?_⟩
  · show (discarded st x).tab = x.tab
    rw [discarded_spec]
  · show (discarded st x).zrg = x.zrg
    rw [discarded_spec]

end Cancel

/-- Settles O38: the refusals, the withdrawal of a claim, the end of a session, and both with both stations named. -/
theorem cancelCommand : Obligations.CancelCommand := by
  intro q sb s s1 hadm ends named owns waits alone gone withdrawn ended
  have answers {status : Status} {body : List Byte} {b : Block}
      (h : ownCancel sb s1 = { status := status, body := body, after := b }) : ends status body b := by
    refine (finish_serve_admitted hadm rfl).trans ?_
    rw [h]
    rfl
  have taken {st : Station} {names : List Station} {b : Block} (hnames : cancelNames sb.toNat = some names)
      (hmem : st ∈ names) (hon : owns st ∨ waits st) (hb : cancelStations names s1 = b) : ends .ok [] b := by
    refine answers ?_
    unfold ownCancel
    rw [hnames, ← hb]
    refine if_pos (List.any_eq_true.mpr ⟨st, hmem, ?_⟩)
    rw [Bool.or_eq_true, hasClaim_iff, ownsSession_iff]
    exact hon.symm
  have notOwner {st : Station} (h : ¬ owns st) : ownsSession st s1 = false := by
    rw [← Bool.not_eq_true, ownsSession_iff]
    exact h
  have noClaim {st : Station} (h : ¬ waits st) : hasClaim s1 st = false := by
    rw [← Bool.not_eq_true, hasClaim_iff]
    exact h
  have single (p : Station → Bool) (st : Station) (h : p st = true) : [st].filter p = [st] := by
    rw [List.filter_cons_of_pos h]
    rfl
  have nothing (p : Station → Bool) (st : Station) (h : p st = false) : [st].filter p = [] := by
    rw [List.filter_cons_of_neg (by rw [h]; decide)]
    rfl
  refine ⟨fun h0 h1 h255 => answers ?_, fun hsb hnone => answers ?_, fun st cy i r hnamed halone hm => ⟨fun hw ho => ?_,
    fun u hs hu hw => ?_⟩, fun st cy' i' r' cy i r u hsb hs hu hwo hw hm' => ?_, fun x st cy i r hm hstay => ⟨?_,
    fun u hs hu => ⟨fun hq => ?_, fun rest cy' j w hq hy hwj hn => ?_⟩⟩⟩
  · unfold ownCancel
    rw [cancelNames_none h0 h1 h255]
    rfl
  · have list : ∃ names, cancelNames sb.toNat = some names ∧ ∀ st ∈ names, named st := by
      rcases hsb with h | h | h <;> subst h
      · exact ⟨[.a], rfl, by intro st hst; cases List.mem_singleton.mp hst; exact .inr rfl⟩
      · exact ⟨[.b], rfl, by intro st hst; cases List.mem_singleton.mp hst; exact .inr rfl⟩
      · exact ⟨[.a, .b], rfl, fun st _ => .inl rfl⟩
    obtain ⟨names, hnames, hall⟩ := list
    unfold ownCancel
    rw [hnames]
    refine if_neg fun h => ?_
    obtain ⟨st, hst, hon⟩ := List.any_eq_true.mp h
    obtain ⟨ho, hw⟩ := hnone st (hall st hst)
    rw [noClaim hw, notOwner ho] at hon
    cases hon
  · obtain ⟨names, hnames, hmem, hfilter⟩ := cancelNames_named hnamed
    refine taken hnames hmem (.inr hw) ?_
    have owners : names.filter (fun st => ownsSession st s1) = [] := by
      rw [hfilter _ fun h => notOwner (halone h).1, nothing _ _ (notOwner ho)]
    have claimers : names.filter (hasClaim s1) = [st] := by
      rw [hfilter _ fun h => noClaim (halone h).2, single _ _ (hasClaim_iff.mpr hw)]
    unfold cancelStations
    rw [owners, claimers]
    exact cancelClaim_eq hm hw fun u hs hu => ho ⟨u, hs, hu⟩
  · obtain ⟨names, hnames, hmem, hfilter⟩ := cancelNames_named hnamed
    refine taken hnames hmem (.inl ⟨u, hs, hu⟩) ?_
    have owners : names.filter (fun st => ownsSession st s1) = [st] := by
      rw [hfilter _ fun h => notOwner (halone h).1, single _ _ (ownsSession_iff.mpr ⟨u, hs, hu⟩)]
    have claimers : names.filter (hasClaim s1) = [] := by
      rw [hfilter _ fun h => noClaim (halone h).2, nothing _ _ (noClaim hw)]
    unfold cancelStations
    rw [owners, claimers]
    exact cancelSession_eq hm hs hu
  · intro b hm
    have notOther : ¬ owns (otherStation st) := by
      rintro ⟨v, hv, hov⟩
      cases hs.symm.trans hv
      rw [hu] at hov
      cases st <;> cases hov
    have names : cancelNames sb.toNat = some [.a, .b] := by rw [hsb]; rfl
    refine taken (st := st) names (by cases st <;> decide) (.inl ⟨u, hs, hu⟩) ?_
    have owners : [Station.a, .b].filter (fun st => ownsSession st s1) = [st] := 
      filter_both (ownsSession_iff.mpr ⟨u, hs, hu⟩) (notOwner notOther)
    have claimers : [Station.a, .b].filter (hasClaim s1) = [otherStation st] :=
      filter_both (hasClaim_iff.mpr hwo) (by rw [otherStation_otherStation]; exact noClaim hw)
    have claim : cancelClaim (otherStation st) s1 = b :=
      cancelClaim_eq hm' hwo fun v hv hov => notOther ⟨v, hv, hov⟩
    have session : b.scu.session = some u :=
      (session_cancelledClaim (by rw [hs]; exact Option.some_ne_none u)).trans hs
    unfold cancelStations
    rw [owners, claimers]
    show cancelSession st (cancelClaim (otherStation st) s1) = ended st cy i r u b
    rw [claim]
    exact cancelSession_eq hm session hu
  · have closed := cycleClosed_discarded (st := st) (cy := cy) (i := i) (x := x) (unclaimed st x.scu) (r.aborted false)
    have same : stcOf { discarded st x with scu := unclaimed st x.scu } st = stcOf x st := by
      show stcOf (discarded st x) st = stcOf x st
      rw [discarded_spec]
      rfl
    exact congrArg arbitrate (event_cancelled (cycleOpenTest_cycleClosed same hstay) rfl closed.1 closed.2 hm hstay)
  · let y := cancelledSession st cy i r u x
    have closed := cycleClosed_discarded (st := st) (cy := cy) (i := i) (x := x) (sessionless (unclaimed st x.scu))
      (r.aborted (isAttempt u))
    have same : stcOf { discarded st x with scu := sessionless (unclaimed st x.scu) } st = stcOf x st := by
      show stcOf (discarded st x) st = stcOf x st
      rw [discarded_spec]
      rfl
    refine congrArg arbitrate (event_cancelled (y := y) ?_ rfl closed.1 closed.2 hm hstay)
    show grantOldest (cycleOpenTest st y) = y
    rw [show cycleOpenTest st y = y from cycleOpenTest_cycleClosed same hstay, grantOldest_idle (.inr hq)]
  · let y := cancelledSession st cy i r u x
    have closed := cycleClosed_discarded (st := st) (cy := cy) (i := i) (x := x) (sessionless (unclaimed st x.scu))
      (r.aborted (isAttempt u))
    have same (k : Station) : stcOf { discarded st x with scu := sessionless (unclaimed st x.scu) } k = stcOf x k := by
      show stcOf (discarded st x) k = stcOf x k
      rw [discarded_spec]
      rfl
    have slots : (discarded st x).hst.slots = x.hst.slots := by rw [discarded_spec]
    have hwy : openIn y j cy'.record w :=
      openIn_cycleClosed (r.aborted (isAttempt u)) (openIn_congr hm.2.1 slots) (openIn_congr hwj slots) hn rfl
    have hyo : (stcOf y (otherStation st)).cycle = some cy' := by
      rw [show stcOf y (otherStation st) = _ from stcOf_cycleClosed_other (r.aborted (isAttempt u)), same, hy]
    obtain ⟨w', -, hg⟩ := granted_spec (o := otherStation st) hwy
    refine congrArg arbitrate (event_cancelled (y := granted (otherStation st) cy' j w y)
      (v := sessionless (unclaimed st x.scu)) (c := r.aborted (isAttempt u)) ?_ ?_ ?_ ?_ hm hstay)
    · show grantOldest (cycleOpenTest st y) = _
      rw [show cycleOpenTest st y = y from cycleOpenTest_cycleClosed (same st) hstay]
      exact grantOldest_granted rfl hq hyo hwy
    · exact congrArg (fun z => z.stc) hg
    · rw [hg]; exact closed.1
    · rw [hg]; exact closed.2

end Sys2Proof.Machine
end

section
/-! PROOFS. The Demould Sequencer's operations in the words of Safety.lean, the frame of its events, and DEMOULD_RELEASE and
DEMOULD_RESET: O36. -/

namespace Sys2Proof.Machine

open Sys2Proof

section Sequencer

variable {s x y : Block} {st : Station} {cy : Cycle} {p last : StepCopy} {i : Fin 48} {r : Record}

/-! ### Orders and stops (R15, R148) -/

/-- A frame that takes the place of another may itself be replaced. -/
theorem replaceOrJoin_twice {q : ControlFrame → Bool} {a b : ControlFrame} (ha : q a = true) (l : List ControlFrame) :
    replaceOrJoin q b (replaceOrJoin q a l) = replaceOrJoin q b l := by
  induction l with
  | nil => exact if_pos ha
  | cons f fs ih =>
    by_cases hf : q f = true
    · simp only [replaceOrJoin, hf, ha, if_true]
    · simp only [replaceOrJoin, hf, if_false, ih, Bool.false_eq_true]

theorem stroked_stroked (o o' : StrokeOrder) : stroked st o (stroked st o' s) = stroked st o s := by
  unfold stroked
  dsimp only
  by_cases h : s.rpu.outPort.link = .up
  · simp only [h, if_true]
    rw [replaceOrJoin_twice (show isStrokeOf st (.stroke st _ o') = true from decide_eq_true rfl)]
  · simp only [h, if_false]

/-- An order posted in an event takes the place of the stop order posted before it. -/
theorem ordered_stopped (o : StrokeOrder) (t : Nat) : ordered st o t (stopped st s) = ordered st o t s := by
  unfold ordered stopped
  rw [← modDms_stroked, stroked_stroked, modDms_modDms]

theorem stopped_stopped : stopped st (stopped st s) = stopped st s := by
  unfold stopped
  rw [← modDms_stroked, stroked_stroked, modDms_modDms]

theorem haltedAt_stopped (cause : HaltCause) (m : BitVec 8) (a : Resume) :
    haltedAt st cause m a (stopped st s) = haltedAt st cause m a s := by
  unfold haltedAt
  rw [stopped_stopped]

theorem writes_stopped (w : Record) : stopped st (writes i w s) = writes i w (stopped st s) := rfl

/-- A halt whose cause unites the stuck mask with the record's (R161). -/
theorem halt_united {cause : HaltCause} (m : BitVec 8) (a : Resume) (hc : (stcOf s st).cycle = some cy)
    (ho : openIn s i cy.record r) (h : causeUnites cause = true) : halt st cause m a s =
      haltedAt st cause m a (writes i (r.demoulded fun p => { p with stuckUnion := p.stuckUnion ||| m }) s) := by
  have e : haltedDms cause m a = fun d =>
      { d with
        state := .halted, cause := cause, stuck := m, resume := a, dwellTimer := none
        scanFollows := d.scanFollows && decide (a = .probe)
        probeGroup := if a = .probe then d.probeGroup else none
        probePhase := if a = .probe then d.probePhase else .none } := by
    funext d
    unfold haltedDms
    by_cases hr : a = .probe <;> simp [hr]
  unfold halt haltedAt setState
  rw [postStop_stopped]
  dsimp only
  rw [if_pos h, e]
  refine congrArg (fun x => setLevel (.stationHeld st) true (modStc st (fun c => { c with state := .held }) x)) ?_
  exact modOpenRecord_writes (s := modDms st _ (stopped st s)) hc (openIn_congr ho rfl) _

/-! ### Issue, homing, probing (R148, R149, R157, R165) -/

theorem currentStep_modDms {f : Dms → Dms} (h : (f (dmsOf s st)).stepPos = (dmsOf s st).stepPos) :
    currentStep (modDms st f s) st = currentStep s st := by
  unfold currentStep
  rw [dmsOf_modDms_self, h]
  rfl

theorem lastStep_of_cycle (hc : (stcOf s st).cycle = some cy) (hl : cy.steps.getLast? = some last) :
    lastStep s st = some last := by
  unfold lastStep stepsOf
  rw [hc]
  exact hl

theorem enterHoming_homed (h : lastStep s st = some last) : enterHoming st s = homed st last s := by
  unfold enterHoming homed
  rw [h]
  dsimp only
  by_cases hi : issueOk s st = true
  · rw [if_pos hi, if_pos hi, postMotion_ordered]
    unfold ordered
    rw [modDms_modDms, ← modDms_stroked, modDms_modDms]
  · rw [if_neg hi, if_neg hi, halt_haltedAt _ _ _ _ _ rfl]

/-- A probe begins with its outward move (R157). -/
theorem beginProbe_probed (g : Nat) (h : currentStep s st = some p) (hc : (stcOf s st).cycle = some cy) :
    beginProbe st g s = probed st p g .out (min 30000 ((dmsOf s st).retractPos.getD 0 + cy.recipe.scanTravel))
      (max 1 (p.ceiling * cy.recipe.scanForce / 100)) s := by
  unfold beginProbe probed
  rw [h]
  have figures : scanFigures s st = (cy.recipe.scanForce, cy.recipe.scanTravel) := by
    unfold scanFigures
    rw [hc]
  have fresh (f : Dms → Dms) : issueOk (modDms st f s) st = issueOk s st := rfl
  dsimp only
  rw [figures, fresh]
  by_cases hi : issueOk s st = true
  · rw [if_pos hi, if_pos hi, postMotion_ordered]
    rfl
  · rw [if_neg hi, if_neg hi, halt_haltedAt _ _ _ _ _ rfl]

/-- The step boundary (R154). -/
theorem stepBoundary_passed {n : Nat} (hc : (stcOf s st).cycle = some cy) (hl : cy.steps.getLast? = some last)
    (hn : (dmsOf s st).stepPos = n) : stepBoundary st s = passed st cy.steps last n s := by
  subst hn
  have steps : stepsOf s st = cy.steps := by unfold stepsOf; rw [hc]
  unfold stepBoundary passed advance
  dsimp only
  rw [steps]
  cases hp : cy.steps[(dmsOf s st).stepPos]? with
  | none =>
    dsimp only [Option.isSome_none]
    rw [if_neg Bool.false_ne_true, halt_haltedAt _ _ _ _ _ rfl]
    refine if_congr Iff.rfl rfl (if_congr decide_eq_true_iff rfl ?_)
    exact enterHoming_homed (lastStep_of_cycle hc hl)
  | some p =>
    dsimp only [Option.isSome_some]
    rw [if_pos rfl, halt_haltedAt _ _ _ _ _ rfl]
    have next := dmsOf_modDms_self s st fun d =>
      { d with stepPos := (dmsOf s st).stepPos + 1, mask := p.mask, retries := 0 }
    refine if_congr ?_ rfl (if_congr decide_eq_true_iff rfl ?_)
    · rw [next]
    · refine (issueStep_issued (s := modDms st (fun d =>
        { d with stepPos := (dmsOf s st).stepPos + 1, mask := p.mask, retries := 0 }) s)
        (currentStep_of_cycle hc ?_ hp)).trans ?_ <;> rw [next]

/-! ### What an event of the sequencer leaves alone -/

/-- The tables, the zones, the other station and, but for its state, the station itself are as they were. -/
def SequencerOnly (st : Station) (s x : Block) : Prop :=
  x.tab = s.tab ∧ x.zrg = s.zrg ∧ stcOf x (otherStation st) = stcOf s (otherStation st) ∧
    ∃ k : StationState, k ≠ .off ∧ k ≠ .standby ∧ stcOf x st = { stcOf s st with state := k }

theorem sequencerOnly_self (h : (stcOf s st).state ≠ .off ∧ (stcOf s st).state ≠ .standby) (ht : x.tab = s.tab)
    (hz : x.zrg = s.zrg) (hx : x.stc = s.stc) : SequencerOnly st s x :=
  ⟨ht, hz, by unfold stcOf; rw [hx], (stcOf s st).state, h.1, h.2, by unfold stcOf; rw [hx]⟩

theorem SequencerOnly.trans (h : SequencerOnly st s x) (g : SequencerOnly st x y) : SequencerOnly st s y := by
  obtain ⟨h1, h2, h3, k, -, -, h4⟩ := h
  obtain ⟨g1, g2, g3, k', hk, hk', g4⟩ := g
  exact ⟨g1.trans h1, g2.trans h2, g3.trans h3, k', hk, hk', by rw [g4, h4]⟩

theorem SequencerOnly.warm (h : SequencerOnly st s x) : (stcOf x st).state ≠ .off ∧ (stcOf x st).state ≠ .standby := by
  obtain ⟨-, -, -, k, h1, h2, h⟩ := h
  rw [h]
  exact ⟨h1, h2⟩

/-- A change of the sequencer's own fields, a posted order and a written record leave the stations alone. -/
theorem SequencerOnly.keeps (h : SequencerOnly st s x) (ht : y.tab = x.tab) (hz : y.zrg = x.zrg) (hy : y.stc = x.stc) :
    SequencerOnly st s y := h.trans (sequencerOnly_self h.warm ht hz hy)

/-- A halt changes of the stations only that its own is HELD. -/
theorem haltedAt_frame (cause : HaltCause) (m : BitVec 8) (a : Resume) :
    (haltedAt st cause m a x).tab = x.tab ∧ (haltedAt st cause m a x).zrg = x.zrg ∧
      (haltedAt st cause m a x).stc = (modStc st (fun c => { c with state := .held }) x).stc := by
  refine ⟨?_, ?_, ?_⟩ <;> unfold haltedAt <;> rw [setLevel_spec] <;> rfl

theorem SequencerOnly.haltedAt (h : SequencerOnly st s x) (cause : HaltCause) (m : BitVec 8) (a : Resume) :
    SequencerOnly st s (haltedAt st cause m a x) := by
  obtain ⟨ht, hz, hstc⟩ := haltedAt_frame (st := st) (x := x) cause m a
  have stcy (k : Station) : stcOf (Machine.haltedAt st cause m a x) k =
      stcOf (modStc st (fun c => { c with state := .held }) x) k := by
    unfold stcOf
    rw [hstc]
  refine h.trans ⟨ht, hz, ?_, .held, by decide, by decide, ?_⟩
  · rw [stcy, stcOf_modStc_other]
  · rw [stcy, stcOf_modStc_self]

theorem SequencerOnly.ordered (h : SequencerOnly st s x) (o : StrokeOrder) (t : Nat) :
    SequencerOnly st s (ordered st o t x) := h.keeps rfl rfl rfl

theorem SequencerOnly.modDms (h : SequencerOnly st s x) (f : Dms → Dms) : SequencerOnly st s (modDms st f x) :=
  h.keeps rfl rfl rfl

theorem SequencerOnly.writes (h : SequencerOnly st s x) (w : Record) : SequencerOnly st s (writes i w x) :=
  h.keeps rfl rfl rfl

theorem SequencerOnly.issued (h : SequencerOnly st s x) (p : StepCopy) (m : BitVec 8) :
    SequencerOnly st s (issued st p m x) := by
  unfold Machine.issued
  split
  · exact (h.modDms _).ordered _ _
  · exact h.haltedAt _ _ _

theorem SequencerOnly.homed (h : SequencerOnly st s x) (p : StepCopy) : SequencerOnly st s (homed st p x) := by
  unfold Machine.homed
  split
  · exact (h.modDms _).ordered _ _
  · exact h.haltedAt _ _ _

theorem SequencerOnly.probed (h : SequencerOnly st s x) (p : StepCopy) (g : Nat) (phase : ProbePhase) (t c : Nat) :
    SequencerOnly st s (probed st p g phase t c x) := by
  unfold Machine.probed
  dsimp only
  split
  · exact (h.modDms _).ordered _ _
  · exact (h.modDms _).haltedAt _ _ _

theorem SequencerOnly.passed (h : SequencerOnly st s x) (steps : List StepCopy) (last : StepCopy) (n : Nat) :
    SequencerOnly st s (passed st steps last n x) := by
  unfold Machine.passed
  dsimp only
  have next : SequencerOnly st s (match steps[n]? with
      | some p => Machine.modDms st (fun d => { d with stepPos := n + 1, mask := p.mask, retries := 0 }) x
      | none => x) := by
    split
    · exact h.modDms _
    · exact h
  split
  · exact (next.modDms _).haltedAt _ _ _
  · split
    · exact next.modDms _
    · split
      · exact (h.modDms _).issued _ _
      · exact h.homed _

/-- An event of the sequencer adds nothing to its effect while no target is left to move. -/
theorem event_sequencerOnly {f : Block → Block} (hf : SequencerOnly st s (f s))
    (hs : (stcOf s st).state ≠ .off ∧ (stcOf s st).state ≠ .standby) (h : targetsHeld s st) : event f s = f s := by
  obtain ⟨ht, hz, ho, k, h1, h2, hst⟩ := hf
  refine event_of_targetsHeld f s st ho (by apply permitOf_congr <;> rw [hst]) ?_
  refine targetsHeld_warm ht (fun z => by unfold zoneOf; rw [hz]) hs ?_ ?_ ?_ h
  · rw [hst]; exact ⟨h1, h2⟩
  · rw [hst]
  · rw [hst]

end Sequencer

/-! ### DEMOULD_RELEASE and DEMOULD_RESET (R81, R163, R164) -/

section Release

variable {s : Block} {st : Station} {cy : Cycle} {p last : StepCopy} {i : Fin 48} {r : Record}

/-- The station back in DEMOULDING, with what halted its sequencer cleared. -/
def backAtWork (st : Station) (s : Block) : Block :=
  { modStc st (fun c => { c with state := .demoulding })
      (modDms st (fun d => { d with stuck := 0, cause := .none, resume := .none }) s) with
    cdu := { s.cdu with present := s.cdu.present &&& ~~~(1#23 <<< (5 * stationNum st)) } }

theorem modDms_leaveHeld : modDms st (fun d => { d with stuck := 0, cause := .none, resume := .none }) (leaveHeld st s) =
    backAtWork st s := by
  unfold leaveHeld backAtWork
  rw [setLevel_off]
  rfl

theorem stcOf_backAtWork : stcOf (backAtWork st s) st = { stcOf s st with state := .demoulding } :=
  stcOf_modStc_self s st fun c => { c with state := .demoulding }

theorem dmsOf_backAtWork : dmsOf (backAtWork st s) st =
    { dmsOf s st with stuck := 0, cause := .none, resume := .none } :=
  dmsOf_modDms_self s st fun d => { d with stuck := 0, cause := .none, resume := .none }

theorem sequencerOnly_backAtWork : SequencerOnly st s (backAtWork st s) :=
  ⟨rfl, rfl, stcOf_modStc_other s st fun c => { c with state := .demoulding }, .demoulding, by decide, by decide, stcOf_backAtWork⟩

theorem dmsOf_leaveHeld : dmsOf (leaveHeld st s) st = dmsOf s st := by
  unfold leaveHeld
  rw [setLevel_off]
  rfl

/-- A release after a halt that unites no stuck groups takes the resume action (R163). -/
theorem releaseDms_resumes (h : causeUnites (dmsOf s st).cause = false) :
    releaseDms st (leaveHeld st s) = takeAction st (dmsOf s st).resume (backAtWork st s) := by
  unfold releaseDms
  rw [dmsOf_leaveHeld, modDms_leaveHeld]
  exact if_neg (by rw [h]; decide)

/-- The working mask without the stuck groups, and no retries. -/
def withoutStuck (m : BitVec 8) (st : Station) (x : Block) : Block := modDms st (fun d => { d with mask := m, retries := 0 }) x

/-- A release after a stall goes on without the stuck groups (R163). -/
theorem releaseDms_unites (h : causeUnites (dmsOf s st).cause = true) :
    let m := (dmsOf s st).mask &&& ~~~(dmsOf s st).stuck
    releaseDms st (leaveHeld st s) = if m = 0 then
      stepBoundary st (modDemould st (fun p => { p with skipped := bump8 p.skipped }) (withoutStuck m st (backAtWork st s)))
      else issueStep st (withoutStuck m st (backAtWork st s)) := by
  intro m
  unfold releaseDms
  rw [dmsOf_leaveHeld, modDms_leaveHeld]
  exact if_pos h

theorem causeUnites_iff (c : HaltCause) : causeUnites c = true ↔ c = .stall ∨ c = .stallUnlocated ∨ c = .retractStall := by
  cases c <;> simp [causeUnites]

theorem resetSequencer_homed (hc : (stcOf s st).cycle = some cy) (hl : cy.steps.getLast? = some last)
    (ho : openIn s i cy.record r) : resetSequencer st (leaveHeld st s) =
      homed st last (modDms st (fun d => { d with probeGroup := none, probePhase := .none, scanFollows := false })
        (writes i { r with flags := r.flags ||| (1#16 <<< 5) } (backAtWork st s))) := by
  have hstc : stcOf (leaveHeld st s) st = { stcOf s st with state := .demoulding } := by
    unfold leaveHeld
    rw [setLevel_off]
    exact stcOf_modStc_self s st fun c => { c with state := .demoulding }
  have slots : (leaveHeld st s).hst.slots = s.hst.slots := by
    unfold leaveHeld
    rw [setLevel_off]
    rfl
  unfold resetSequencer
  rw [setFlag_writes (cy := cy) (i := i) (r := r) (by rw [hstc]; exact hc) (openIn_congr ho slots), ← modDms_leaveHeld,
    ← modDms_writes, modDms_modDms]
  refine enterHoming_homed (lastStep_of_cycle (cy := cy) ?_ hl)
  show (stcOf (leaveHeld st s) st).cycle = some cy
  rw [hstc]
  exact hc

end Release

/-- Settles O36: the refusals outside HELD, the release by the halt's cause and resume action, and the reset. -/
theorem demouldReleaseAndReset : Obligations.DemouldReleaseAndReset := by
  intro q sb arg st s s1 hst c d back
  have hback : back = backAtWork st s1 := rfl
  refine ⟨fun hadm hs => station_answers rfl hadm hst (if_neg hs), fun hadm hs => station_answers rfl hadm hst (if_neg hs),
    fun hs hheld cy last i r hc hl ho => ⟨fun hadm n p hn hp => ?_, fun hadm => ?_⟩⟩
  · have hstate : (stcOf s1 st).state = .held := hs
    have warm : (stcOf s1 st).state ≠ .off ∧ (stcOf s1 st).state ≠ .standby := by rw [hstate]; decide
    intro ends unites m left
    have released {x : Block} (h : releaseDms st (leaveHeld st s1) = x) (hx : SequencerOnly st s1 x) : ends x := by
      refine station_answers rfl hadm hst ((if_pos hs).trans ?_)
      rw [event_sequencerOnly (st := st) (by show SequencerOnly st s1 (releaseDms st (leaveHeld st s1)); rw [h]; exact hx)
        warm hheld, h]
      rfl
    have resumes (h : ¬ unites) : causeUnites (dmsOf s1 st).cause = false := by
      rw [← Bool.not_eq_true, causeUnites_iff]
      exact h
    have hcb : (stcOf back st).cycle = some cy := by rw [hback, stcOf_backAtWork]; exact hc
    have hnb : (dmsOf back st).stepPos = n + 1 := by rw [hback, dmsOf_backAtWork]; exact hn
    have current : currentStep back st = some p := currentStep_of_cycle hcb hnb hp
    have frame : SequencerOnly st s1 back := sequencerOnly_backAtWork
    have hleft : left back = withoutStuck m st back := rfl
    have hdl : dmsOf (left back) st = { dmsOf back st with mask := m, retries := 0 } :=
      dmsOf_modDms_self back st fun d => { d with mask := m, retries := 0 }
    refine ⟨fun hu ha => released ?_ (frame.issued _ _), fun hu ha => released ?_ (frame.homed _),
      fun g hu ha hg => released ?_ ((frame.modDms _).probed _ _ _ _ _), fun hu hm => released ?_ ((frame.modDms _).issued _ _),
      fun hu hm => released ?_ (((frame.modDms _).writes _).passed _ _ _)⟩
    · rw [releaseDms_resumes (resumes hu), show (dmsOf s1 st).resume = .step from ha]
      refine (issueStep_issued current).trans ?_
      rw [hback, dmsOf_backAtWork]
    · rw [releaseDms_resumes (resumes hu), show (dmsOf s1 st).resume = .homing from ha]
      exact enterHoming_homed (lastStep_of_cycle hcb hl)
    · have hgb : (dmsOf back st).probeGroup = some g := by rw [hback, dmsOf_backAtWork]; exact hg
      rw [releaseDms_resumes (resumes hu), show (dmsOf s1 st).resume = .probe from ha, ← hback]
      unfold takeAction
      rw [hgb]
      have hd' : dmsOf (modDms st (fun d => { d with probeStuck := d.probeStuck &&& ~~~groupBit g }) back) st =
          { dmsOf back st with probeStuck := (dmsOf back st).probeStuck &&& ~~~groupBit g } :=
        dmsOf_modDms_self back st fun d => { d with probeStuck := d.probeStuck &&& ~~~groupBit g }
      have again := beginProbe_probed (s := modDms st (fun d => { d with probeStuck := d.probeStuck &&& ~~~groupBit g }) back)
        g ((currentStep_modDms rfl).trans current) hcb
      rw [hd', hback, dmsOf_backAtWork] at again
      exact again
    · rw [releaseDms_unites ((causeUnites_iff _).mpr hu)]
      refine (if_neg hm).trans ?_
      rw [← hback, ← hleft, issueStep_issued (s := left back) ((currentStep_modDms rfl).trans current), hdl]
    · rw [releaseDms_unites ((causeUnites_iff _).mpr hu)]
      refine (if_pos hm).trans ?_
      rw [← hback, ← hleft]
      have skip : modDemould st (fun p => { p with skipped := bump8 p.skipped }) (left back) =
          writes i (r.demoulded fun p => { p with skipped := min (p.skipped + 1) 255 }) (left back) :=
        modOpenRecord_writes (s := left back) hcb (openIn_congr ho rfl) _
      have hpos : (dmsOf (left back) st).stepPos = (dmsOf s1 st).stepPos := by rw [hdl, hback, dmsOf_backAtWork]
      rw [skip]
      exact stepBoundary_passed (s := writes i _ (left back)) hcb hl hpos
  · have hstate : (stcOf s1 st).state = .held := hs
    refine station_answers rfl hadm hst ((if_pos hs).trans ?_)
    have reset := resetSequencer_homed (s := s1) (st := st) hc hl ho
    have warm : (stcOf s1 st).state ≠ .off ∧ (stcOf s1 st).state ≠ .standby := by rw [hstate]; decide
    rw [event_sequencerOnly (st := st) ?_ warm hheld, reset]
    · rfl
    · show SequencerOnly st s1 (resetSequencer st (leaveHeld st s1))
      rw [reset]
      exact ((sequencerOnly_backAtWork.writes _).modDms _).homed _

end Sys2Proof.Machine
end

section
/-! PROOFS. What each event of the Demould Sequencer comes to, one lemma an operation, for SEQUENCER_TIMERS (O51). -/

namespace Sys2Proof.Machine

open Sys2Proof

section Motion

variable {s : Block} {st : Station} {cy : Cycle} {p last : StepCopy} {i : Fin 48} {r : Record} {n g : Nat}

/-! ### Moving states (R147) -/

/-- A sequencer in a state that moves the ejectors. -/
def Moving (d : Dms) : Prop := d.state = .stroking ∨ d.state = .retracting ∨ d.state = .homing ∨
  (d.state = .probing ∧ (d.probePhase = .out ∨ d.probePhase = .back))

theorem isMoving_iff (d : Dms) : isMoving d = true ↔ Moving d := by
  unfold isMoving Moving
  cases d.state <;> simp

theorem isMoving_eq_false (d : Dms) (h : ¬ Moving d) : isMoving d = false := by
  rw [← Bool.not_eq_true, isMoving_iff]
  exact h

/-- What a sequencer that halts in a moving state resumes with (R153). -/
def haltResume (d : Dms) : Resume :=
  if d.state = .probing then .probe else if d.state = .homing then .homing else .step

theorem ejectorStale_moving (h : Moving (dmsOf s st)) :
    ejectorStale st s = haltedAt st .sensor 0 (haltResume (dmsOf s st)) s := by
  unfold ejectorStale
  refine (if_pos ((isMoving_iff _).mpr h)).trans ?_
  unfold haltResume
  rcases h with h | h | h | ⟨h, -⟩ <;> rw [h] <;> exact halt_haltedAt _ _ _ _ _ rfl

theorem ejectorStale_idle (h : ¬ Moving (dmsOf s st)) : ejectorStale st s = s :=
  if_neg (by rw [isMoving_eq_false _ h]; decide)

theorem stepExpiry_halts (h : Moving (dmsOf s st))
    (hp : ¬ ((dmsOf s st).state = .probing ∧ (dmsOf s st).probePhase = .out)) :
    stepExpiry st s = haltedAt st .timeout 0 (haltResume (dmsOf s st)) s := by
  have halts (a : Resume) : halt st .timeout 0 a s = haltedAt st .timeout 0 a s := halt_haltedAt _ _ _ _ _ rfl
  unfold stepExpiry haltResume
  dsimp only
  rcases h with h | h | h | ⟨h, h' | h'⟩
  · rw [h]; exact halts .step
  · rw [h]; exact halts .step
  · rw [h]; exact halts .homing
  · exact absurd ⟨h, h'⟩ hp
  · rw [h, h']; exact halts .probe

theorem stepExpiry_idle (h : ¬ Moving (dmsOf s st)) : stepExpiry st s = s := by
  unfold stepExpiry
  unfold Moving at h
  cases hs : (dmsOf s st).state with
  | stroking | retracting | homing => simp [hs] at h
  | probing =>
    cases hp : (dmsOf s st).probePhase with
    | out | back => simp [hs, hp] at h
    | none | rest => simp only [hs, hp]
  | idle | dwell | paused | halted | done => simp only [hs]

theorem stepExpiry_outward (h : (dmsOf s st).state = .probing) (hp : (dmsOf s st).probePhase = .out) :
    stepExpiry st s = probeStuckNow st s := by
  unfold stepExpiry
  dsimp only
  rw [h, hp]

theorem dwellExpiry_idle (h : (dmsOf s st).state ≠ .dwell)
    (hp : ¬ ((dmsOf s st).state = .probing ∧ (dmsOf s st).probePhase = .rest)) : dwellExpiry st s = s := by
  unfold dwellExpiry
  cases hs : (dmsOf s st).state with
  | dwell => exact absurd hs h
  | probing =>
    simp only [hs]
    exact if_neg fun hr => hp ⟨hs, hr⟩
  | idle | stroking | retracting | paused | halted | homing | done => simp only [hs]

/-! ### The stop order before another order (R155, R158) -/

/-- A change of the sequencer that neither reads nor sets the order in force and the step timer. -/
def LeavesOrder (f : Dms → Dms) : Prop :=
  ∀ d, f { d with order := none, stepTimer := none } = { f d with order := none, stepTimer := none }

theorem modDms_stopped {f : Dms → Dms} (h : LeavesOrder f) : modDms st f (stopped st s) = stopped st (modDms st f s) := by
  unfold stopped
  rw [modDms_modDms, ← modDms_stroked, modDms_modDms]
  exact modDms_congr st _ _ _ (h _)

theorem probed_stopped (phase : ProbePhase) (t c : Nat) :
    probed st p g phase t c (stopped st s) = probed st p g phase t c s := by
  unfold probed
  have fresh : issueOk (stopped st s) st = issueOk s st := rfl
  dsimp only
  rw [fresh, modDms_stopped (fun d => rfl), ordered_stopped, haltedAt_stopped]

/-! ### Retract, probe return, dwell and rest (R154, R155, R158, R159) -/

/-- The retract order of the working mask (R155). -/
def retracted (st : Station) (p : StepCopy) (m : BitVec 8) (target : Nat) (s : Block) : Block :=
  if issueOk s st = true then
    ordered st { mask := m, target := target, ceiling := p.ceiling, speed := p.speed } p.timeout
      (modDms st (fun d => { d with state := .retracting }) s)
  else haltedAt st .sensor 0 .step s

theorem retract_retracted (h : currentStep s st = some p) :
    retract st s = retracted st p (dmsOf s st).mask ((dmsOf s st).retractPos.getD 0) s := by
  unfold retract retracted
  rw [h]
  dsimp only
  by_cases hi : issueOk s st = true
  · rw [if_pos hi, if_pos hi, postMotion_ordered]
    unfold ordered
    rw [modDms_modDms, ← modDms_stroked, modDms_modDms]
    rfl
  · rw [if_neg hi, if_neg hi, halt_haltedAt _ _ _ _ _ rfl]

theorem retracted_stopped (m : BitVec 8) (t : Nat) : retracted st p m t (stopped st s) = retracted st p m t s := by
  unfold retracted
  have fresh : issueOk (stopped st s) st = issueOk s st := rfl
  rw [fresh, modDms_stopped (fun d => rfl), ordered_stopped, haltedAt_stopped]

/-- The return of a probe (R158). -/
theorem probeReturn_probed (h : currentStep s st = some p) (hs : (dmsOf s st).state = .probing)
    (hg : (dmsOf s st).probeGroup = some g) :
    probeReturn st s = probed st p g .back ((dmsOf s st).retractPos.getD 0) p.ceiling s := by
  have returns : modDms st (fun d => { d with probePhase := .back }) s =
      modDms st (fun d => { d with state := .probing, probeGroup := some g, probePhase := .back }) s :=
    modDms_congr st _ _ s (by rw [← hs, ← hg])
  have fresh (f : Dms → Dms) : issueOk (modDms st f s) st = issueOk s st := rfl
  unfold probeReturn probed
  rw [h, hg]
  dsimp only
  rw [returns, fresh]
  by_cases hi : issueOk s st = true
  · rw [if_pos hi, if_pos hi, postMotion_ordered]
    rfl
  · rw [if_neg hi, if_neg hi, halt_haltedAt _ _ _ _ _ rfl]

/-- A group found stuck returns (R158). -/
theorem probeStuckNow_probed (h : currentStep s st = some p) (hs : (dmsOf s st).state = .probing)
    (hg : (dmsOf s st).probeGroup = some g) :
    probeStuckNow st s = probed st p g .back ((dmsOf s st).retractPos.getD 0) p.ceiling
      (modDms st (fun d => { d with probeStuck := d.probeStuck ||| (1#8 <<< g) }) s) := by
  let x := modDms st (fun d => { d with probeStuck := d.probeStuck ||| (1#8 <<< g) }) s
  have hx : dmsOf (stopped st x) st =
      { dmsOf s st with probeStuck := (dmsOf s st).probeStuck ||| (1#8 <<< g), order := none, stepTimer := none } := by
    refine (dmsOf_modDms_self (s := stroked st stopOrder x) st _).trans ?_
    have hxs : dmsOf x st = { dmsOf s st with probeStuck := (dmsOf s st).probeStuck ||| (1#8 <<< g) } :=
      dmsOf_modDms_self s st fun d => { d with probeStuck := d.probeStuck ||| (1#8 <<< g) }
    have hstroked : dmsOf (stroked st stopOrder x) st = dmsOf x st := rfl
    rw [hstroked, hxs]
  have current : currentStep (stopped st x) st = some p := by
    refine (currentStep_modDms (s := stroked st stopOrder x) rfl).trans ?_
    exact (currentStep_modDms (s := s) (f := fun d => { d with probeStuck := d.probeStuck ||| (1#8 <<< g) }) rfl).trans h
  have returns := probeReturn_probed (s := stopped st x) (g := g) current (by rw [hx]; exact hs) (by rw [hx]; exact hg)
  rw [probed_stopped, hx] at returns
  unfold probeStuckNow
  rw [hg]
  dsimp only
  rw [postStop_stopped]
  exact returns

/-- The record with the step counted as completed. -/
def completedRecord (r : Record) : Record := r.demoulded fun p => { p with completed := min (p.completed + 1) 255 }

theorem dwellDone_passed (hc : (stcOf s st).cycle = some cy) (ho : openIn s i cy.record r)
    (hl : cy.steps.getLast? = some last) (hn : (dmsOf s st).stepPos = n) :
    dwellDone st s = passed st cy.steps last n
      (writes i (completedRecord r) (modDms st (fun d => { d with dwellTimer := none }) s)) := by
  have counted : modDemould st (fun p => { p with completed := bump8 p.completed })
      (modDms st (fun d => { d with dwellTimer := none }) s) =
      writes i (completedRecord r) (modDms st (fun d => { d with dwellTimer := none }) s) :=
    modOpenRecord_writes (s := modDms st (fun d => { d with dwellTimer := none }) s) hc (openIn_congr ho rfl) _
  unfold dwellDone
  rw [counted]
  refine stepBoundary_passed (s := writes i _ (modDms st (fun d => { d with dwellTimer := none }) s)) hc hl ?_
  rw [dmsOf_writes, dmsOf_modDms_self]
  exact hn

theorem startDwell_runs {done : Block → Block} (h : currentStep s st = some p) (hd : p.dwell ≠ 0) :
    startDwell st done s = modDms st (fun d => { d with dwellTimer := some { elapsed := 0, length := p.dwell } }) s := by
  unfold startDwell
  rw [h]
  exact if_neg hd

theorem startDwell_done {done : Block → Block} (h : currentStep s st = some p) (hd : p.dwell = 0) :
    startDwell st done s = done s := by
  unfold startDwell
  rw [h]
  exact if_pos hd

/-! ### The groups of a mask (R157, R158) -/

/-- The lowest group of a mask from `g` on. -/
def FirstGroup (m : BitVec 8) (g k : Nat) : Prop :=
  g ≤ k ∧ k < 8 ∧ m.getLsbD k = true ∧ ∀ j, g ≤ j → j < k → m.getLsbD j = false

theorem nextGroup_eq_some (m : BitVec 8) {k : Nat} (h : FirstGroup m g k) : nextGroup m g = some k := by
  obtain ⟨h1, h2, h3, h4⟩ := h
  unfold nextGroup
  rw [List.find?_range_eq_some]
  refine ⟨by simp [h1, h3], by simpa using h2, fun j hj => ?_⟩
  by_cases hg : g ≤ j
  · simp [h4 j hg hj]
  · simp [hg]

theorem nextGroup_eq_none (m : BitVec 8) (h : ∀ k, g ≤ k → k < 8 → m.getLsbD k = false) : nextGroup m g = none := by
  unfold nextGroup
  rw [List.find?_range_eq_none]
  intro k hk
  by_cases hg : g ≤ k
  · simp [h k hg hk]
  · simp [hg]

/-- The record with a stuck mask united with its own (R161). -/
def unitedRecord (m : BitVec 8) (w : Record) : Record := w.demoulded fun p => { p with stuckUnion := p.stuckUnion ||| m }

section Rest

variable {k : Nat}

/-- The dwell timer stopped. -/
def rest (st : Station) (s : Block) : Block := modDms st (fun d => { d with dwellTimer := none }) s

theorem dmsOf_rest : dmsOf (rest st s) st = { dmsOf s st with dwellTimer := none } :=
  dmsOf_modDms_self s st fun d => { d with dwellTimer := none }

theorem restDone_next (hg : (dmsOf s st).probeGroup = some g) (hk : FirstGroup (dmsOf s st).mask (g + 1) k)
    (hh : heldOf s (.stationSignal st .hold) ≠ 1) (h : currentStep s st = some p) (hc : (stcOf s st).cycle = some cy) :
    restDone st s = probed st p k .out (min 30000 ((dmsOf s st).retractPos.getD 0 + cy.recipe.scanTravel))
      (max 1 (p.ceiling * cy.recipe.scanForce / 100)) (rest st s) := by
  have current : currentStep (rest st s) st = some p := (currentStep_modDms rfl).trans h
  have begins := beginProbe_probed (s := rest st s) k current hc
  rw [dmsOf_rest] at begins
  refine Eq.trans ?_ begins
  have next : nextGroup (dmsOf (rest st s) st).mask ((dmsOf (rest st s) st).probeGroup.getD 0 + 1) = some k := by
    rw [dmsOf_rest, hg]
    exact nextGroup_eq_some _ hk
  have free : ¬ holdOn (rest st s) st = true := fun hold => hh (of_decide_eq_true hold)
  unfold rest at next free
  unfold restDone rest
  dsimp only
  rw [next]
  exact if_neg free

theorem restDone_held (hg : (dmsOf s st).probeGroup = some g) (hk : FirstGroup (dmsOf s st).mask (g + 1) k)
    (hh : heldOf s (.stationSignal st .hold) = 1) :
    restDone st s = pausedAt st .probe (modDms st (fun d => { d with probeGroup := some k }) (rest st s)) := by
  have next : nextGroup (dmsOf (rest st s) st).mask ((dmsOf (rest st s) st).probeGroup.getD 0 + 1) = some k := by
    rw [dmsOf_rest, hg]
    exact nextGroup_eq_some _ hk
  have held : holdOn (rest st s) st = true := decide_eq_true hh
  unfold rest at next held
  unfold restDone rest
  dsimp only
  rw [next]
  exact if_pos held

theorem restDone_ends (hg : (dmsOf s st).probeGroup = some g)
    (hk : ∀ k, g < k → k < 8 → (dmsOf s st).mask.getLsbD k = false) (hc : (stcOf s st).cycle = some cy)
    (ho : openIn s i cy.record r) :
    ((dmsOf s st).probeStuck = 0 → restDone st s =
      haltedAt st .stallUnlocated (dmsOf s st).mask .step (writes i (unitedRecord (dmsOf s st).mask r) (rest st s))) ∧
    ((dmsOf s st).probeStuck ≠ 0 → restDone st s =
      haltedAt st .stall (dmsOf s st).probeStuck .step (writes i (unitedRecord (dmsOf s st).probeStuck r) (rest st s))) := by
  have next : nextGroup (dmsOf (rest st s) st).mask ((dmsOf (rest st s) st).probeGroup.getD 0 + 1) = none := by
    rw [dmsOf_rest, hg]
    exact nextGroup_eq_none _ fun k h => hk k h
  have ends : restDone st s = endScan st (rest st s) := by
    unfold rest at next
    unfold restDone rest
    dsimp only
    rw [next]
  have hor : openIn (rest st s) i cy.record r := openIn_congr ho rfl
  rw [ends]
  unfold endScan
  rw [dmsOf_rest]
  exact ⟨fun h => (if_pos h).trans (halt_united _ _ (s := rest st s) hc hor rfl),
    fun h => (if_neg h).trans (halt_united _ _ (s := rest st s) hc hor rfl)⟩

end Rest

end Motion

end Sys2Proof.Machine
end

section
/-! PROOFS. The readings of the ejector signals and HOLD, and the sequencer's events together: O51. -/

namespace Sys2Proof.Machine

open Sys2Proof

section Readings

variable {s : Block} {st : Station} {cy : Cycle} {p last : StepCopy} {i : Fin 48} {r : Record} {n g k : Nat} {v : Int}

/-! ### Arrivals (R150, R154, R156, R158, R165) -/

/-- An EJECT_POS reading within the tolerance of the order in force. -/
def Near (s : Block) (st : Station) (v : Int) : Prop := ∃ o, (dmsOf s st).order = some o ∧
  (v - (o.target : Int)).natAbs ≤ (s.tab.stations.get st).tolerance

theorem arrived_iff : arrived s st v = true ↔ Near s st v := by
  unfold arrived Near
  cases (dmsOf s st).order <;> simp

/-- The step timer stopped by an arrival. -/
def freed (st : Station) (s : Block) : Block := modDms st (fun d => { d with stepTimer := none }) s

theorem dmsOf_freed : dmsOf (freed st s) st = { dmsOf s st with stepTimer := none } :=
  dmsOf_modDms_self s st fun d => { d with stepTimer := none }

theorem currentStep_freed : currentStep (freed st s) st = currentStep s st := currentStep_modDms rfl

theorem posReading_idle (h : ¬ Moving (dmsOf s st) ∨ ¬ Near s st v) : posReading st v s = s := by
  refine if_neg fun hm => ?_
  rw [Bool.and_eq_true, isMoving_iff, arrived_iff] at hm
  rcases h with h | h
  · exact h hm.1
  · exact h hm.2

theorem posReading_arrives (h : Moving (dmsOf s st)) (hn : Near s st v) : posReading st v s = arrival st s :=
  if_pos (by rw [(isMoving_iff _).mpr h, arrived_iff.mpr hn]; rfl)

theorem arrival_stroking (h : (dmsOf s st).state = .stroking) : arrival st s =
    startDwell st (dwellDone st) (modDms st (fun d => { d with state := .dwell }) (freed st s)) := by
  unfold arrival
  dsimp only
  rw [h]
  rfl

theorem arrival_homing (h : (dmsOf s st).state = .homing) : arrival st s = chainDone st (freed st s) := by
  unfold arrival
  dsimp only
  rw [h]
  rfl

theorem arrival_retracting (h : (dmsOf s st).state = .retracting) : arrival st s = retractArrival st (freed st s) := by
  unfold arrival
  dsimp only
  rw [h]
  rfl

theorem arrival_outward (h : (dmsOf s st).state = .probing) (hp : (dmsOf s st).probePhase = .out) :
    arrival st s = probeReturn st (freed st s) := by
  unfold arrival
  dsimp only
  rw [h, hp]
  rfl

theorem arrival_back (h : (dmsOf s st).state = .probing) (hp : (dmsOf s st).probePhase = .back) : arrival st s =
    startDwell st (restDone st) (modDms st (fun d => { d with probePhase := .rest }) (freed st s)) := by
  unfold arrival
  dsimp only
  rw [h, hp]
  rfl

/-- The record with the duration of the chain written (R165). -/
def durationRecord (n : Nat) (r : Record) : Record := r.demoulded fun p => { p with duration := n }

theorem chainDone_closes (hc : (stcOf s st).cycle = some cy) (ho : openIn s i cy.record r) : chainDone st (freed st s) =
    cycleOpenTest st (cycleClosed st cy i (durationRecord ((dmsOf s st).clock.getD 0) r)
      (modDms st (fun d => { d with state := .done, clock := none, abortPending := false }) (stopped st s))) := by
  have stops : stopped st (freed st s) = stopped st s := by
    unfold stopped freed
    rw [← modDms_stroked, modDms_modDms]
  let w := durationRecord ((dmsOf s st).clock.getD 0) r
  let x := modDms st (fun d => { d with state := .done, clock := none, abortPending := false }) (stopped st s)
  have written : modDemould st (fun p => { p with duration := (dmsOf s st).clock.getD 0 }) (stopped st s) =
      writes i w (stopped st s) := modOpenRecord_writes (s := stopped st s) hc (openIn_congr ho rfl) _
  have close := closeCycle_eq (s := writes i w x) (st := st) (cy := cy) (r := w) hc (openIn_writes (openIn_congr ho rfl) rfl)
  rw [cycleClosed_writes] at close
  unfold chainDone
  dsimp only
  rw [postStop_stopped, stops, dmsOf_freed]
  dsimp only
  rw [written]
  exact close

/-- The record with a retry counted (R156). -/
def retriedRecord (r : Record) : Record := r.demoulded fun q => { q with retries := min (q.retries + 1) 255 }

theorem retractArrival_again (h : (dmsOf s st).scanFollows = false) (hp : currentStep s st = some p)
    (hc : (stcOf s st).cycle = some cy) (ho : openIn s i cy.record r) : retractArrival st s =
      issued st p (dmsOf s st).mask
        (writes i (retriedRecord r) (modDms st (fun d => { d with retries := d.retries + 1 }) s)) := by
  let x := modDms st (fun d => { d with retries := d.retries + 1 }) s
  have hx : dmsOf x st = { dmsOf s st with retries := (dmsOf s st).retries + 1 } :=
    dmsOf_modDms_self s st fun d => { d with retries := d.retries + 1 }
  have current : currentStep (writes i (retriedRecord r) x) st = some p :=
    (currentStep_modDms (s := s) (f := fun d => { d with retries := d.retries + 1 }) rfl).trans hp
  have counted : modDemould st (fun p => { p with retries := bump8 p.retries }) x = writes i (retriedRecord r) x :=
    modOpenRecord_writes (s := x) hc (openIn_congr ho rfl) _
  unfold retractArrival
  refine (if_neg (by rw [h]; decide)).trans ?_
  rw [counted, issueStep_issued current, dmsOf_writes, hx]

theorem retractArrival_scan (h : (dmsOf s st).scanFollows = true) (hp : currentStep s st = some p)
    (hc : (stcOf s st).cycle = some cy) (hk : FirstGroup (dmsOf s st).mask 0 k) : retractArrival st s =
      probed st p k .out (min 30000 ((dmsOf s st).retractPos.getD 0 + cy.recipe.scanTravel))
        (max 1 (p.ceiling * cy.recipe.scanForce / 100))
        (modDms st (fun d => { d with scanFollows := false, probeStuck := 0 }) s) := by
  let x := modDms st (fun d => { d with scanFollows := false, probeStuck := 0 }) s
  have hx : dmsOf x st = { dmsOf s st with scanFollows := false, probeStuck := 0 } :=
    dmsOf_modDms_self s st fun d => { d with scanFollows := false, probeStuck := 0 }
  have mask : (dmsOf (modDms st (fun d => { d with scanFollows := false }) s) st).mask = (dmsOf s st).mask := by
    rw [dmsOf_modDms_self]
  have current : currentStep x st = some p := (currentStep_modDms rfl).trans hp
  have begins := beginProbe_probed (s := x) k current hc
  rw [hx] at begins
  unfold retractArrival
  refine (if_pos h).trans ?_
  unfold beginScan
  rw [mask, nextGroup_eq_some _ hk]
  dsimp only
  rw [modDms_modDms]
  exact begins

/-! ### Forces (R151, R155) -/

/-- The record with its peak force raised (R151). -/
def raisedRecord (v : Int) (r : Record) : Record := r.demoulded fun q => { q with peakForce := max q.peakForce v.toNat }

/-- The record with a stall counted and DEMOULD_RETRIED set (R151, R155). -/
def stalledRecord (w : Record) : Record :=
  let x := w.demoulded fun q => { q with stalls := min (q.stalls + 1) 255 }
  { x with flags := x.flags ||| (1#16 <<< 8) }

theorem countStall_writes (hc : (stcOf s st).cycle = some cy) (ho : openIn s i cy.record r) :
    countStall st s = writes i (stalledRecord r) s := by
  let w := r.demoulded fun q => { q with stalls := min (q.stalls + 1) 255 }
  have counted : modDemould st (fun p => { p with stalls := bump8 p.stalls }) s = writes i w s :=
    modOpenRecord_writes hc ho _
  unfold countStall
  rw [counted, setFlag_writes (s := writes i w s) hc (openIn_writes ho rfl), writes_writes]
  rfl

/-- The stop order of a stall, with the stall counted. -/
theorem countStall_postStop (hc : (stcOf s st).cycle = some cy) (ho : openIn s i cy.record r) :
    countStall st (postStop st s) = stopped st (writes i (stalledRecord r) s) := by
  rw [postStop_stopped, countStall_writes (s := stopped st s) hc (openIn_congr ho rfl), writes_stopped]

/-- The force limit of a moving state (R151). -/
def limitOf (d : Dms) (cy : Cycle) (p last : StepCopy) : Nat := match d.state with
  | .homing => last.ceiling
  | .probing => if d.probePhase = .out then max 1 (p.ceiling * cy.recipe.scanForce / 100) else p.ceiling
  | _ => p.ceiling

theorem forceLimit_idle (h : ¬ Moving (dmsOf s st)) : forceLimit s st = none := by
  unfold Moving at h
  unfold forceLimit
  cases hs : (dmsOf s st).state with
  | stroking | retracting | homing => simp [hs] at h
  | probing =>
    cases hp : (dmsOf s st).probePhase with
    | out | back => simp [hs, hp] at h
    | none | rest => simp only [hs, hp]
  | idle | dwell | paused | halted | done => simp only [hs]

theorem forceLimit_moving (h : Moving (dmsOf s st)) (hp : currentStep s st = some p) (hc : (stcOf s st).cycle = some cy)
    (hl : cy.steps.getLast? = some last) : forceLimit s st = some (limitOf (dmsOf s st) cy p last) := by
  have figures : scanFigures s st = (cy.recipe.scanForce, cy.recipe.scanTravel) := by
    unfold scanFigures
    rw [hc]
  unfold forceLimit limitOf
  dsimp only
  rcases h with h | h | h | ⟨h, h' | h'⟩
  · rw [h, hp]; rfl
  · rw [h, hp]; rfl
  · rw [h, lastStep_of_cycle hc hl]; rfl
  · rw [h, h', hp, figures]; rfl
  · rw [h, h', hp]; rfl

/-- The reading of a force within the limit only raises the peak. -/
theorem forceReading_within (hc : (stcOf s st).cycle = some cy) (ho : openIn s i cy.record r)
    (hp : currentStep s st = some p) (hl : cy.steps.getLast? = some last)
    (h : ¬ Moving (dmsOf s st) ∨ v ≤ limitOf (dmsOf s st) cy p last) :
    forceReading st v s = writes i (raisedRecord v r) s := by
  have raised : raiseForce st v s = writes i (raisedRecord v r) s := modOpenRecord_writes hc ho _
  have same : forceLimit (writes i (raisedRecord v r) s) st = forceLimit s st := rfl
  unfold forceReading
  dsimp only
  rw [raised, same]
  by_cases hm : Moving (dmsOf s st)
  · rw [forceLimit_moving hm hp hc hl]
    exact if_neg (not_lt.mpr (h.resolve_left (not_not_intro hm)))
  · rw [forceLimit_idle hm]

theorem forceReading_above (hc : (stcOf s st).cycle = some cy) (ho : openIn s i cy.record r)
    (hp : currentStep s st = some p) (hl : cy.steps.getLast? = some last) (hm : Moving (dmsOf s st))
    (h : (limitOf (dmsOf s st) cy p last : Int) < v) :
    forceReading st v s = forceExceeded st (writes i (raisedRecord v r) s) := by
  have raised : raiseForce st v s = writes i (raisedRecord v r) s := modOpenRecord_writes hc ho _
  have same : forceLimit (writes i (raisedRecord v r) s) st = forceLimit s st := rfl
  unfold forceReading
  dsimp only
  rw [raised, same, forceLimit_moving hm hp hc hl]
  exact if_pos h

/-- A stall in STROKING (R155). -/
theorem stall_cases (hc : (stcOf s st).cycle = some cy) (ho : openIn s i cy.record r) (hp : currentStep s st = some p) :
    let x := writes i (stalledRecord r) s
    let target := (dmsOf s st).retractPos.getD 0
    ((dmsOf s st).retries < cy.recipe.maxRetries → stall st s = retracted st p (dmsOf s st).mask target x) ∧
    (cy.recipe.maxRetries ≤ (dmsOf s st).retries → cy.recipe.scanEnable = true →
      stall st s = retracted st p (dmsOf s st).mask target (modDms st (fun d => { d with scanFollows := true }) x)) ∧
    (cy.recipe.maxRetries ≤ (dmsOf s st).retries → cy.recipe.scanEnable = false →
      stall st s = haltedAt st .stall (dmsOf s st).mask .step
        (writes i (unitedRecord (dmsOf s st).mask (stalledRecord r)) s)) := by
  intro x target
  have figures : stallFigures s st = (decide ((dmsOf s st).retries < cy.recipe.maxRetries), cy.recipe.scanEnable) := by
    unfold stallFigures
    rw [hc]
  have counted : countStall st (postStop st s) = stopped st x := countStall_postStop hc ho
  have hds : dmsOf (stopped st x) st = { dmsOf s st with order := none, stepTimer := none } :=
    dmsOf_modDms_self (stroked st stopOrder x) st fun d => { d with order := none, stepTimer := none }
  have current : currentStep (stopped st x) st = some p :=
    (currentStep_modDms (s := stroked st stopOrder x) (f := fun d => { d with order := none, stepTimer := none })
      rfl).trans hp
  unfold stall
  dsimp only
  rw [figures, counted]
  refine ⟨fun h => ?_, fun h hs => ?_, fun h hs => ?_⟩
  · rw [if_pos (decide_eq_true h), retract_retracted current, retracted_stopped, hds]
  · let f : Dms → Dms := fun d => { d with scanFollows := true }
    have hdf : dmsOf (modDms st f (stopped st x)) st =
        { dmsOf s st with order := none, stepTimer := none, scanFollows := true } := by
      rw [dmsOf_modDms_self, hds]
    rw [if_neg (by simpa using h), if_pos hs,
      retract_retracted (s := modDms st f (stopped st x)) ((currentStep_modDms rfl).trans current), hdf,
      modDms_stopped (fun d => rfl), retracted_stopped]
  · have hox : openIn (stopped st x) i cy.record (stalledRecord r) :=
      openIn_congr (openIn_writes (x := stalledRecord r) ho rfl) rfl
    rw [if_neg (by simpa using h), if_neg (by rw [hs]; exact Bool.false_ne_true), halt_united (s := stopped st x) _ _ hc hox rfl,
      ← writes_stopped, haltedAt_stopped]
    exact congrArg _ (writes_writes i _ _ s)

/-- A counted stall that halts with a cause that unites the stuck groups (R151). -/
theorem stallHalt_united {cause : HaltCause} (m : BitVec 8) (a : Resume) (hc : (stcOf s st).cycle = some cy)
    (ho : openIn s i cy.record r) (h : causeUnites cause = true) : stallHalt st cause m a s =
      haltedAt st cause m a (writes i (unitedRecord m (stalledRecord r)) s) := by
  have hox : openIn (stopped st (writes i (stalledRecord r) s)) i cy.record (stalledRecord r) :=
    openIn_congr (openIn_writes (x := stalledRecord r) ho rfl) rfl
  unfold stallHalt
  rw [countStall_postStop hc ho, halt_united (s := stopped st (writes i (stalledRecord r) s)) _ _ hc hox h,
    ← writes_stopped, haltedAt_stopped]
  exact congrArg _ (writes_writes i _ _ s)

/-- A counted stall in HOMING (R151). -/
theorem stallHalt_home (hc : (stcOf s st).cycle = some cy) (ho : openIn s i cy.record r) :
    stallHalt st .homeStall 0 .homing s = haltedAt st .homeStall 0 .homing (writes i (stalledRecord r) s) := by
  unfold stallHalt
  rw [countStall_postStop hc ho, halt_haltedAt _ _ _ _ _ rfl, haltedAt_stopped]

/-- The exceeded limit of an outward probe. -/
theorem forceExceeded_outward (h : (dmsOf s st).state = .probing) (hp : (dmsOf s st).probePhase = .out) :
    forceExceeded st s = probeStuckNow st s := by
  unfold forceExceeded
  dsimp only
  rw [h, hp]

theorem forceExceeded_back (h : (dmsOf s st).state = .probing) (hp : (dmsOf s st).probePhase = .back)
    (hg : (dmsOf s st).probeGroup = some g) :
    forceExceeded st s = stallHalt st .retractStall ((dmsOf s st).probeStuck ||| groupBit g) .step s := by
  unfold forceExceeded
  dsimp only
  rw [h, hp, hg]

theorem forceExceeded_stroking (h : (dmsOf s st).state = .stroking) : forceExceeded st s = stall st s := by
  unfold forceExceeded
  dsimp only
  rw [h]

theorem forceExceeded_retracting (h : (dmsOf s st).state = .retracting) :
    forceExceeded st s = stallHalt st .retractStall (dmsOf s st).mask .step s := by
  unfold forceExceeded
  dsimp only
  rw [h]

theorem forceExceeded_homing (h : (dmsOf s st).state = .homing) :
    forceExceeded st s = stallHalt st .homeStall 0 .homing s := by
  unfold forceExceeded
  dsimp only
  rw [h]

/-! ### The dwell timer (R154, R158) -/

theorem dwellExpiry_dwell (h : (dmsOf s st).state = .dwell) : dwellExpiry st s = dwellDone st s := by
  unfold dwellExpiry
  dsimp only
  rw [h]

theorem dwellExpiry_rest (h : (dmsOf s st).state = .probing) (hp : (dmsOf s st).probePhase = .rest) :
    dwellExpiry st s = restDone st s := by
  unfold dwellExpiry
  dsimp only
  rw [h]
  exact if_pos hp

/-! ### HOLD (R160) -/

theorem holdEvent_idle (h : (dmsOf s st).state ≠ .paused ∨ heldOf s (.stationSignal st .hold) = 1) :
    holdEvent st s = s := by
  refine if_neg fun hp => ?_
  rw [Bool.and_eq_true, decide_eq_true_iff, Bool.not_eq_true', ← Bool.not_eq_true] at hp
  rcases h with h | h
  · exact h hp.1
  · exact hp.2 (decide_eq_true h)

theorem holdEvent_resumes (h : (dmsOf s st).state = .paused) (hh : heldOf s (.stationSignal st .hold) ≠ 1) :
    holdEvent st s = takeAction st (dmsOf s st).resume (modDms st (fun d => { d with resume := .none }) s) := by
  refine if_pos ?_
  rw [Bool.and_eq_true, decide_eq_true_iff, Bool.not_eq_true', ← Bool.not_eq_true]
  exact ⟨h, fun hold => hh (of_decide_eq_true hold)⟩

end Readings

/-- Settles O51: timers, stale signals, arrivals, forces, the scan and HOLD. -/
theorem sequencerTimers : Obligations.SequencerTimers := by
  intro st s b c d signal stepFires dwellFires moving resume
  have step {x : Block} (h : d.stepTimer ≠ none) (hx : stepExpiry st b = x) : stepFires x :=
    finish_running h (event_congr hx)
  have dwell {x : Block} (h : d.dwellTimer ≠ none) (hx : dwellExpiry st b = x) : dwellFires x :=
    finish_running h (event_congr hx)
  refine ⟨fun h => finish_stopped h, fun h => finish_stopped h,
    fun h => ⟨fun hm hp => step h (stepExpiry_halts hm hp), fun hm => step h (stepExpiry_idle hm)⟩,
    fun h hd hp => dwell h (dwellExpiry_idle hd hp), fun g hg => ⟨fun hm => ?_, fun hm => ?_⟩, ?_⟩
  · rcases hg with hg | hg <;> subst hg <;> exact ejectorStale_moving hm
  · rcases hg with hg | hg <;> subst hg <;> exact ejectorStale_idle hm
  intro cy i r last hc ho hl done retract near freed' outward back stuckBack first united rested idle
  have rests {y : Block} {g : Nat} (hmask : (dmsOf y st).mask = d.mask) (hstuck : (dmsOf y st).probeStuck = d.probeStuck)
      (hret : (dmsOf y st).retractPos = d.retractPos) (hpos : (dmsOf y st).stepPos = d.stepPos)
      (hgrp : (dmsOf y st).probeGroup = some g) (hstc : y.stc = b.stc) (hslots : y.hst.slots = b.hst.slots)
      (htab : y.tab = b.tab) (h1 : 1 ≤ d.stepPos) : rested g (idle y) (restDone st y) := by
    have hcy : (stcOf y st).cycle = some cy := by unfold stcOf; rw [hstc]; exact hc
    have hold : heldOf y (signal .hold) = heldOf b (signal .hold) := heldOf_congr htab _
    refine ⟨fun k p hk hp => ⟨fun hh => ?_, fun hh => ?_⟩, fun hk => ?_⟩
    · exact restDone_held hgrp (by rw [hmask]; exact hk) (hold.trans hh)
    · have current : currentStep y st = some p :=
        currentStep_of_cycle (n := d.stepPos - 1) hcy (by rw [hpos]; omega) hp
      have next := restDone_next hgrp (k := k) (by rw [hmask]; exact hk) (by rw [hold]; exact hh) current hcy
      rw [hret] at next
      exact next
    · have ends := restDone_ends hgrp (by rw [hmask]; exact hk) hcy (openIn_congr ho hslots)
      rw [hmask, hstuck] at ends
      exact ends
  refine ⟨fun hd => ⟨fun hs h1 => dwell hd ?_, fun g hs hp hg h1 => ⟨restDone st b, dwell hd ?_, ?_⟩⟩,
    fun v edge => ⟨fun h => posReading_idle h, fun hn hs => ?_⟩, fun n p hn hp v edge => ?_⟩
  · exact (dwellExpiry_dwell hs).trans (dwellDone_passed hc ho hl rfl)
  · exact dwellExpiry_rest hs hp
  · exact rests rfl rfl rfl rfl hg rfl rfl rfl h1
  · exact (posReading_arrives (.inr (.inr (.inl hs))) hn).trans ((arrival_homing hs).trans (chainDone_closes hc ho))
  have current : currentStep b st = some p := currentStep_of_cycle hc hn hp
  have hof : openIn (freed st b) i cy.record r := openIn_congr ho rfl
  intro pos retried raised stalled limit force retracts
  refine ⟨fun hnear => ⟨fun hs hd => ?_, fun hs hd => ?_, fun hs hf => ?_, fun k hs hf hk => ?_, fun g hs hph hg => ?_,
    fun g hs hph hg => ?_⟩, fun g ht hs hph hg => ?_, fun h => ?_, fun hlim => ?_, ?_⟩
  · refine (posReading_arrives (.inl hs) hnear).trans ((arrival_stroking hs).trans ?_)
    refine (startDwell_runs (s := modDms st (fun d => { d with state := .dwell }) (freed st b))
      ((currentStep_modDms rfl).trans (currentStep_freed.trans current)) hd).trans ?_
    rw [modDms_modDms]
    rfl
  · let x := modDms st (fun d => { d with state := .dwell }) (freed st b)
    have hx : (dmsOf x st).stepPos = d.stepPos := by
      rw [dmsOf_modDms_self, dmsOf_freed]
    refine (posReading_arrives (.inl hs) hnear).trans ((arrival_stroking hs).trans ?_)
    have currentx : currentStep x st = some p := (currentStep_modDms rfl).trans (currentStep_freed.trans current)
    refine (startDwell_done currentx hd).trans ?_
    exact dwellDone_passed (s := x) hc (openIn_congr ho rfl) hl hx
  · refine (posReading_arrives (.inr (.inl hs)) hnear).trans ((arrival_retracting hs).trans ?_)
    have again := retractArrival_again (s := freed st b) (by rw [dmsOf_freed]; exact hf) (currentStep_freed.trans current)
      hc hof
    rw [dmsOf_freed] at again
    exact again
  · refine (posReading_arrives (.inr (.inl hs)) hnear).trans ((arrival_retracting hs).trans ?_)
    have scan := retractArrival_scan (s := freed st b) (k := k) (by rw [dmsOf_freed]; exact hf)
      (currentStep_freed.trans current) hc (by rw [dmsOf_freed]; exact hk)
    rw [dmsOf_freed] at scan
    exact scan
  · refine (posReading_arrives (.inr (.inr (.inr ⟨hs, .inl hph⟩))) hnear).trans ((arrival_outward hs hph).trans ?_)
    have returns := probeReturn_probed (s := freed st b) (g := g) (currentStep_freed.trans current)
      (by rw [dmsOf_freed]; exact hs) (by rw [dmsOf_freed]; exact hg)
    rw [dmsOf_freed] at returns
    exact returns
  · intro y
    have arrives : deliverReading (signal .ejectPos) v edge b = startDwell st (restDone st) y :=
      (posReading_arrives (.inr (.inr (.inr ⟨hs, .inr hph⟩))) hnear).trans (arrival_back hs hph)
    have hy : dmsOf y st = { d with stepTimer := none, probePhase := .rest } :=
      (dmsOf_modDms_self (freed st b) st fun d => { d with probePhase := .rest }).trans (by rw [dmsOf_freed])
    have currenty : currentStep y st = some p := (currentStep_modDms rfl).trans (currentStep_freed.trans current)
    refine ⟨fun hd => arrives.trans (startDwell_runs currenty hd), fun hd => ⟨restDone st y,
      arrives.trans (startDwell_done currenty hd), ?_⟩⟩
    exact rests (by rw [hy]) (by rw [hy]) (by rw [hy]) (by rw [hy]) (by rw [hy]; exact hg) rfl rfl rfl
      (by rw [hn]; exact Nat.le_add_left 1 n)
  · exact step ht ((stepExpiry_outward hs hph).trans (probeStuckNow_probed current hs hg))
  · exact forceReading_within hc ho current hl h
  · let z := writes i raised b
    have hz : openIn z i cy.record raised := openIn_writes ho rfl
    have currentz : currentStep z st = some p := current
    have above (hm : Moving d) : deliverReading (signal .ejectForce) v edge b = forceExceeded st z :=
      forceReading_above hc ho current hl hm hlim
    refine ⟨fun hs => ?_, fun hs => ?_, fun hs => ?_, fun g hs hg => ?_⟩
    · obtain ⟨again, scan, halts⟩ := stall_cases (s := z) hc hz currentz
      have stalls := (above (.inl hs)).trans (forceExceeded_stroking (s := z) hs)
      rw [writes_writes] at again scan halts
      exact ⟨fun h => stalls.trans (again h), fun h h' => stalls.trans (scan h h'), fun h h' => stalls.trans (halts h h')⟩
    · refine (above (.inr (.inl hs))).trans ((forceExceeded_retracting (s := z) hs).trans ?_)
      exact (stallHalt_united (s := z) _ _ hc hz rfl).trans (congrArg _ (writes_writes i _ _ b))
    · refine (above (.inr (.inr (.inl hs)))).trans ((forceExceeded_homing (s := z) hs).trans ?_)
      exact (stallHalt_home (s := z) hc hz).trans (congrArg _ (writes_writes i _ _ b))
    · intro m
      refine ⟨fun hph => ?_, fun hph => ?_⟩
      · refine (above (.inr (.inr (.inr ⟨hs, .inl hph⟩)))).trans ((forceExceeded_outward (s := z) hs hph).trans ?_)
        exact probeStuckNow_probed (s := z) currentz hs hg
      · refine (above (.inr (.inr (.inr ⟨hs, .inr hph⟩)))).trans ((forceExceeded_back (s := z) hs hph hg).trans ?_)
        exact (stallHalt_united (s := z) _ _ hc hz rfl).trans (congrArg _ (writes_writes i _ _ b))
  · intro x held
    have hx : dmsOf x st = { d with resume := .none } := dmsOf_modDms_self b st fun d => { d with resume := .none }
    have currentx : currentStep x st = some p := (currentStep_modDms rfl).trans current
    refine ⟨fun h => ⟨holdEvent_idle h, holdEvent_idle h⟩, fun hs hh => ?_⟩
    have resumes {a : Resume} {w : Block} (ha : d.resume = a) (hw : takeAction st a x = w) : held w := by
      have event : holdEvent st b = w := (holdEvent_resumes hs hh).trans (by rw [← hw, ← ha])
      exact ⟨event, event⟩
    refine ⟨fun ha => resumes ha ?_, fun ha => resumes ha ?_, fun g ha hg => resumes ha ?_⟩
    · refine (issueStep_issued currentx).trans ?_
      rw [hx]
    · exact enterHoming_homed (lastStep_of_cycle (s := x) hc hl)
    · have hgx : (dmsOf x st).probeGroup = some g := by rw [hx]; exact hg
      let y := modDms st (fun d => { d with probeStuck := d.probeStuck &&& ~~~(1#8 <<< g) }) x
      have hy : dmsOf y st = { d with resume := .none, probeStuck := d.probeStuck &&& ~~~(1#8 <<< g) } :=
        (dmsOf_modDms_self x st fun d => { d with probeStuck := d.probeStuck &&& ~~~(1#8 <<< g) }).trans (by rw [hx])
      have begins := beginProbe_probed (s := y) g ((currentStep_modDms rfl).trans currentx) hc
      rw [hy] at begins
      unfold takeAction
      rw [hgx]
      exact begins

end Sys2Proof.Machine
end

section
/-! PROOFS. The cure gate, the entry into CURING and its ends, the press edges: O46. -/

namespace Sys2Proof.Machine

open Sys2Proof

section Gate

variable {s x : Block} {st o : Station} {cy k : Cycle} {i j : Fin 48} {r w : Record} {v : Int}

/-- A record flag, set where `on`. -/
def flagBit (n : Nat) (on : Bool) : BitVec 16 := if on = true then 1#16 <<< n else 0

theorem or_flagBit (f : BitVec 16) (n : Nat) (on : Bool) :
    (if on = true then f ||| (1#16 <<< n) else f) = f ||| flagBit n on := by
  unfold flagBit
  split
  · rfl
  · exact (BitVec.or_zero).symm

theorem or_flagBit_false (f : BitVec 16) (n : Nat) : f ||| flagBit n false = f := (or_flagBit f n false).symm

/-- A flag set where a condition holds. -/
theorem setFlag_if (hc : (stcOf s st).cycle = some cy) (ho : openIn s i cy.record r) (f : RecFlag) (on : Bool) :
    (if on = true then setFlag st f s else s) = writes i { r with flags := r.flags ||| flagBit (recFlagNum f) on } s := by
  rw [← or_flagBit]
  split
  · exact setFlag_writes hc ho f
  · exact (writes_self ho).symm

theorem judgedRecord_eq : judgedRecord cy r = { r with flags := r.flags ||| flagBit 6 (allowanceBroken cy) } := by
  unfold judgedRecord
  rw [← or_flagBit]
  rfl

/-! ### The gate (R75, R76) -/

/-- A cycle after its gate is judged by the signals as they stand. -/
def gatedNow (s : Block) (st : Station) (cy : Cycle) : Cycle :=
  gatedCycle (closedFresh s st) (tonnageFresh s st cy.recipe.minTonnage) (allInBand s st) cy

/-- A station with another cycle context. -/
def withCycle (cy : Cycle) (st : Station) (s : Block) : Block := modStc st (fun c => { c with cycle := some cy }) s

theorem stcOf_withCycle : stcOf (withCycle k st s) st = { stcOf s st with cycle := some k } :=
  stcOf_modStc_self s st fun c => { c with cycle := some k }

theorem modCycle_withCycle (hc : (stcOf s st).cycle = some cy) (f : Cycle → Cycle) :
    modCycle st f s = withCycle (f cy) st s := modCycle_eq hc f

theorem withCycle_withCycle : withCycle k st (withCycle cy st s) = withCycle k st s := by
  unfold withCycle
  rw [modStc_modStc]

theorem withCycle_writes : withCycle k st (writes i w s) = writes i w (withCycle k st s) := rfl

theorem judgeGate_idle (h : (stcOf s st).state ≠ .curing) : judgeGate st s = s := if_neg h

theorem judgeGate_writes (h : (stcOf s st).state = .curing) (hc : (stcOf s st).cycle = some cy)
    (ho : openIn s i cy.record r) :
    judgeGate st s = writes i (judgedRecord (gatedNow s st cy) r) (withCycle (gatedNow s st cy) st s) := by
  refine (if_pos h).trans ?_
  rw [modCycle_withCycle hc]
  refine judgeAllowance_writes (s := withCycle (gatedNow s st cy) st s) ?_ (openIn_congr ho rfl)
  rw [stcOf_withCycle]

theorem cureTest_idle (h : (stcOf s st).state ≠ .pressLoad ∨ ∃ cy, (stcOf s st).cycle = some cy ∧
    (closedFresh s st && tonnageFresh s st cy.recipe.minTonnage) = false) : cureTest st s = s := by
  unfold cureTest stateOf
  split
  · next c hs hcy =>
    rcases h with h | ⟨cy, hc, hf⟩
    · exact absurd hs h
    · rw [hcy] at hc
      cases hc
      exact if_neg (by rw [hf]; decide)
  · rfl

theorem cureTest_enters (h : (stcOf s st).state = .pressLoad) (hc : (stcOf s st).cycle = some cy)
    (hf : (closedFresh s st && tonnageFresh s st cy.recipe.minTonnage) = true) : cureTest st s = enterCuring st s := by
  unfold cureTest stateOf
  rw [h, hc]
  exact if_pos hf

/-! ### The charge wait (R73) -/

/-- The charge wait that ends is past its maximum. -/
def agedWait (ends : Bool) (cy : Cycle) : Bool := ends && decide (cy.recipe.maxWait * 1000 < cy.chargeWait)

/-- The record with the charge wait that ends written. -/
def waitRecord (ends : Bool) (cy : Cycle) (r : Record) : Record := { r with
  flags := r.flags ||| flagBit 7 (agedWait ends cy)
  charge := if ends = true then r.charge.map fun p => { p with wait := cy.chargeWait } else r.charge }

/-- CHARGE_AGED_SEEN latched where the charge wait that ends is past its maximum. -/
def seenAged (st : Station) (aged : Bool) (x : Block) : Block := { x with cdu := { x.cdu with
  latched := if aged = true then x.cdu.latched ||| (1#23 <<< (5 * stationNum st + 4)) else x.cdu.latched } }

theorem seenAged_false : seenAged st false x = x := rfl

theorem waitRecord_false : waitRecord false cy r = r := by
  unfold waitRecord agedWait flagBit
  simp

theorem stopWait_writes (hc : (stcOf s st).cycle = some cy) (ho : openIn s i cy.record r) : stopWait st s =
    seenAged st (agedWait cy.waitRunning cy)
      (writes i (waitRecord cy.waitRunning cy r) (withCycle { cy with waitRunning := false } st s)) := by
  unfold stopWait
  rw [hc]
  dsimp only
  by_cases hw : cy.waitRunning = true
  · let x := withCycle { cy with waitRunning := false } st s
    let wr : Record := { r with charge := r.charge.map fun p => { p with wait := cy.chargeWait } }
    have hcx : (stcOf x st).cycle = some { cy with waitRunning := false } := by rw [stcOf_withCycle]
    have wait : modOpenRecord st (withWait cy.chargeWait) x = writes i wr x :=
      modOpenRecord_writes (s := x) hcx (openIn_congr ho rfl) _
    rw [if_pos hw, modCycle_withCycle hc, wait, hw]
    by_cases ha : cy.recipe.maxWait * 1000 < cy.chargeWait
    · have aged : agedWait true cy = true := decide_eq_true ha
      rw [if_pos ha, setFlag_writes (s := writes i wr x) hcx (openIn_writes (openIn_congr ho rfl) rfl), writes_writes, aged]
      unfold waitRecord
      rw [aged]
      rfl
    · have fresh : agedWait true cy = false := decide_eq_false ha
      rw [if_neg ha, fresh, seenAged_false]
      unfold waitRecord
      rw [fresh, or_flagBit_false]
      rfl
  · have hw : cy.waitRunning = false := by simpa using hw
    have same : ({ cy with waitRunning := false } : Cycle) = cy := by rw [← hw]
    rw [if_neg (by rw [hw]; decide), hw, show agedWait false cy = false from rfl, seenAged_false, waitRecord_false, same]
    unfold withCycle
    rw [modStc_of_fixed (by rw [← hc]), writes_self ho]

/-! ### The entry into CURING (R72) -/

/-- A cycle as it enters CURING, before its gate is judged. -/
def curingCycle (s : Block) (st : Station) (cy : Cycle) : Cycle :=
  { cy with waitRunning := false, elapsedRunning := true, elapsed := 0
            peakTonnage := (heldOf s (.stationSignal st .tonnage)).toNat }

/-- A record as its cycle enters CURING. -/
def curingRecord (s : Block) (st : Station) (cy k : Cycle) (r : Record) : Record :=
  { waitRecord cy.waitRunning cy r with
    flags := (waitRecord cy.waitRunning cy r).flags ||| flagBit 6 (allowanceBroken k) ||| flagBit 1 (anyFault s st)
    cure := some emptyCure }

/-- The blocks as a station enters CURING, with what is left of the scale in `x`. -/
def curingEntered (st : Station) (cy : Cycle) (i : Fin 48) (r : Record) (x : Block) : Block :=
  let k := gatedNow x st (curingCycle x st cy)
  { seenAged st (agedWait cy.waitRunning cy) (writes i (curingRecord x st cy k r)
      (modStc st (fun c => { c with state := .curing, closeOk := false, cycle := some k }) x)) with
    scu := { x.scu with accepted := x.scu.accepted.set st none }
    zrg := { x.zrg with markers := x.zrg.markers.set st { upper := false, lower := false } } }

/-- A station that has left the scale, its record in CURING, its cycle's gate not judged yet. -/
def enteringCuring (st : Station) (aged : Bool) (k : Cycle) (x : Block) : Block :=
  seenAged st aged { modStc st (fun c => { c with state := .curing, closeOk := false, cycle := some k }) x with
    scu := { x.scu with accepted := x.scu.accepted.set st none } }

/-- The same with the markers of its platens empty. -/
def unmarked (st : Station) (aged : Bool) (k : Cycle) (x : Block) : Block :=
  { enteringCuring st aged k x with
    zrg := { x.zrg with markers := x.zrg.markers.set st { upper := false, lower := false } } }

theorem enteringCuring_eq (aged : Bool) : modStc st (fun c => { c with state := .curing, closeOk := false })
    (dropAccepted st (seenAged st aged (writes i w (withCycle k st x)))) = writes i w (enteringCuring st aged k x) := by
  cases st <;> rfl

theorem unmarked_eq (aged : Bool) :
    clearMarkers st (withCycle k st (writes i w (enteringCuring st aged cy x))) = writes i w (unmarked st aged k x) := by
  cases st <;> rfl

theorem withCycle_unmarked (aged : Bool) : withCycle k st (unmarked st aged cy x) = unmarked st aged k x := by
  cases st <;> rfl

theorem stcOf_enteringCuring (aged : Bool) : stcOf (enteringCuring st aged k x) st =
    { stcOf x st with state := .curing, closeOk := false, cycle := some k } :=
  stcOf_modStc_self x st fun c => { c with state := .curing, closeOk := false, cycle := some k }

theorem stcOf_unmarked (aged : Bool) : stcOf (unmarked st aged k x) st =
    { stcOf x st with state := .curing, closeOk := false, cycle := some k } := stcOf_enteringCuring aged

theorem gatedNow_congr (htab : s.tab = x.tab) (hb : (stcOf s st).inBand = (stcOf x st).inBand) :
    gatedNow s st k = gatedNow x st k := by
  unfold gatedNow closedFresh tonnageFresh
  rw [allInBand_congr st htab hb, isFresh_congr htab, isFresh_congr htab, heldOf_congr htab, heldOf_congr htab]

theorem anyFault_congr (htab : s.tab = x.tab) (hz : s.zrg.zones = x.zrg.zones) : anyFault s st = anyFault x st := by
  unfold anyFault zoneOf
  rw [zonesOf_congr st htab, hz]

theorem enterCuring_entered (hx : leaveScale st s = x) (hc : (stcOf x st).cycle = some cy)
    (ho : openIn x i cy.record r) (htab : x.tab = s.tab) : enterCuring st s = curingEntered st cy i r x := by
  let aged : Bool := agedWait cy.waitRunning cy
  let c1 : Cycle := { cy with waitRunning := false }
  let c2 : Cycle := curingCycle x st cy
  let k : Cycle := gatedNow x st c2
  let w1 : Record := waitRecord cy.waitRunning cy r
  let w2 : Record := { w1 with cure := some emptyCure }
  have ho1 : openIn (writes i w1 (enteringCuring st aged c1 x)) i cy.record w1 := openIn_writes (openIn_congr ho rfl) rfl
  have hc1 : (stcOf (writes i w1 (enteringCuring st aged c1 x)) st).cycle = some c1 := by
    rw [stcOf_writes, stcOf_enteringCuring]
  have hc2 : (stcOf (writes i w2 (unmarked st aged c2 x)) st).cycle = some c2 := by
    rw [stcOf_writes, stcOf_unmarked]
  have hs2 : (stcOf (writes i w2 (unmarked st aged c2 x)) st).state = .curing := by
    rw [stcOf_writes, stcOf_unmarked]
  have ho2 : openIn (writes i w2 (unmarked st aged c2 x)) i cy.record w2 := openIn_writes (openIn_congr ho rfl) rfl
  have tonnage : startCure (heldOf s (.stationSignal st .tonnage)) c1 = c2 := by
    rw [heldOf_congr htab.symm]
    rfl
  have band : (stcOf (writes i w2 (unmarked st aged c2 x)) st).inBand = (stcOf x st).inBand := by
    rw [stcOf_writes, stcOf_unmarked]
  have gate : gatedNow (writes i w2 (unmarked st aged c2 x)) st c2 = k := gatedNow_congr rfl band
  have judged : judgeGate st (writes i w2 (unmarked st aged c2 x)) =
      writes i (judgedRecord k w2) (unmarked st aged k x) := by
    rw [judgeGate_writes hs2 hc2 ho2, gate, withCycle_writes, writes_writes, withCycle_unmarked]
  have hc3 : (stcOf (writes i (judgedRecord k w2) (unmarked st aged k x)) st).cycle = some k := by
    rw [stcOf_writes, stcOf_unmarked]
  have ho3 : openIn (writes i (judgedRecord k w2) (unmarked st aged k x)) i k.record (judgedRecord k w2) :=
    openIn_writes (openIn_congr ho rfl) rfl
  unfold enterCuring
  dsimp only
  rw [hx, stopWait_writes hc ho, enteringCuring_eq, modOpenRecord_writes hc1 ho1, writes_writes,
    modCycle_withCycle (s := writes i w2 (enteringCuring st aged c1 x)) hc1, tonnage, unmarked_eq, judged,
    setFlag_if hc3 ho3, writes_writes,
    anyFault_congr (s := writes i (judgedRecord k w2) (unmarked st aged k x)) (x := x) rfl rfl, judgedRecord_eq]
  rfl

end Gate

end Sys2Proof.Machine
end

section
/-! PROOFS. The press readings in PRESS_LOAD, with the scale left at the entry into CURING, for O46. -/

namespace Sys2Proof.Machine

open Sys2Proof

section Press

variable {s x F : Block} {st o : Station} {cy cy' k : Cycle} {i j : Fin 48} {r w : Record} {v : Int}

/-! ### The gate judged twice (R75) -/

theorem gatedNow_gatedNow : gatedNow s st (gatedNow s st cy) = gatedNow s st cy := by
  have recipe : (gatedNow s st cy).recipe = cy.recipe := rfl
  unfold gatedNow gatedCycle
  dsimp only
  rw [Bool.and_assoc cy.accrualUp, Bool.and_self]

theorem stcOf_curingEntered : stcOf (curingEntered st cy i r x) st =
    { stcOf x st with state := .curing, closeOk := false, cycle := some (gatedNow x st (curingCycle x st cy)) } :=
  stcOf_modStc_self x st fun c =>
    { c with state := .curing, closeOk := false, cycle := some (gatedNow x st (curingCycle x st cy)) }

/-- The test of the gate at the end of the reading that enters CURING finds it judged. -/
theorem judgeGate_curingEntered (ho : openIn x i cy.record r) (hw : w.number = r.number) :
    judgeGate st (curingEntered st cy i w x) = curingEntered st cy i w x := by
  let k := gatedNow x st (curingCycle x st cy)
  have hst := stcOf_curingEntered (st := st) (cy := cy) (i := i) (r := w) (x := x)
  have hc : (stcOf (curingEntered st cy i w x) st).cycle = some k := by rw [hst]
  have hopen : openIn (curingEntered st cy i w x) i k.record (curingRecord x st cy k w) :=
    openIn_congr (openIn_writes (s := modStc st (fun c => { c with state := .curing, closeOk := false, cycle := some k }) x)
      (x := curingRecord x st cy k w) (openIn_congr ho rfl) hw) rfl
  have gate : gatedNow (curingEntered st cy i w x) st k = k := by
    have band : (stcOf (curingEntered st cy i w x) st).inBand = (stcOf x st).inBand := by rw [hst]
    exact (gatedNow_congr (s := curingEntered st cy i w x) (x := x) (st := st) (k := k) rfl band).trans gatedNow_gatedNow
  have record : judgedRecord k (curingRecord x st cy k w) = curingRecord x st cy k w := by
    have flags (f a b : BitVec 16) : f ||| a ||| b ||| a = f ||| a ||| b := by
      ext n
      simp only [BitVec.getElem_or]
      cases f[n] <;> cases a[n] <;> cases b[n] <;> rfl
    rw [judgedRecord_eq]
    unfold curingRecord
    dsimp only
    rw [flags]
  rw [judgeGate_writes (by rw [hst]) hc hopen, gate, record]
  unfold withCycle
  rw [modStc_of_fixed (by rw [hst]), writes_self hopen]

/-- A station in CURING on a given cycle and record, its accepted charge none, its markers empty. -/
def inCuring (st : Station) (i : Fin 48) (aged : Bool) (k : Cycle) (w : Record) (x : Block) : Block :=
  { seenAged st aged
      (writes i w (modStc st (fun c => { c with state := .curing, closeOk := false, cycle := some k }) x)) with
    scu := { x.scu with accepted := x.scu.accepted.set st none }
    zrg := { x.zrg with markers := x.zrg.markers.set st { upper := false, lower := false } } }

theorem curingEntered_inCuring (ht : k = gatedNow x st (curingCycle x st cy)) : curingEntered st cy i r x =
    inCuring st i (agedWait cy.waitRunning cy) k (curingRecord x st cy k r) x := by
  subst ht
  rfl

/-- An entry into CURING overwrites the cycle and the record. -/
theorem inCuring_over (aged : Bool) (w' : Record) (k' : Cycle) :
    inCuring st i false k w (seenAged st aged (writes i w' (withCycle k' st x))) = inCuring st i aged k w x := by
  let f : Stc → Stc := fun c => { c with state := .curing, closeOk := false, cycle := some k }
  let wrap (y : Block) : Block :=
    { seenAged st aged y with
      scu := { x.scu with accepted := x.scu.accepted.set st none }
      zrg := { x.zrg with markers := x.zrg.markers.set st { upper := false, lower := false } } }
  have station : modStc st f (withCycle k' st x) = modStc st f x := modStc_modStc st f _ x
  calc inCuring st i false k w (seenAged st aged (writes i w' (withCycle k' st x)))
      = wrap (writes i w (writes i w' (modStc st f (withCycle k' st x)))) := rfl
    _ = wrap (writes i w (modStc st f x)) := by rw [station, writes_writes]
    _ = inCuring st i aged k w x := rfl

/-! ### CLOSED rising in PRESS_LOAD (R73) -/

/-- The station's block after a CLOSED edge: the charge wait ended, and written. -/
def edged (st : Station) (ends : Bool) (cy : Cycle) (i : Fin 48) (w : Record) (x : Block) : Block :=
  seenAged st (agedWait ends cy) (writes i (waitRecord ends cy w)
    (withCycle { cy with waitRunning := cy.waitRunning && !ends } st x))

theorem edged_false (hc : (stcOf x st).cycle = some cy) (ho : openIn x i cy.record r) : edged st false cy i r x = x := by
  have same : ({ cy with waitRunning := cy.waitRunning && !false } : Cycle) = cy := by
    rw [Bool.not_false, Bool.and_true]
  unfold edged
  rw [same, waitRecord_false, show agedWait false cy = false from rfl, seenAged_false]
  unfold withCycle
  rw [modStc_of_fixed (by rw [← hc]), writes_self ho]

theorem closedRising_pressLoad (hs : (stcOf s st).state = .pressLoad) (hc : (stcOf s st).cycle = some cy)
    (ho : openIn s i cy.record r) (edge : Edge) : (if edge = .rising then closedRising st s else s) =
      edged st (decide (edge = .rising) && cy.waitRunning) cy i
        { r with flags := r.flags ||| flagBit 4 (decide (edge = .rising) && !(stcOf s st).closeOk) } s := by
  by_cases he : edge = .rising
  · let w : Record := { r with flags := r.flags ||| flagBit 4 (!(stcOf s st).closeOk) }
    have flag : (if (stcOf s st).closeOk = true then s else setFlag st .unpermittedClose s) = writes i w s := by
      have set := setFlag_if hc ho .unpermittedClose (!(stcOf s st).closeOk)
      refine Eq.trans ?_ set
      cases (stcOf s st).closeOk <;> rfl
    have rising : closedRising st s = stopWait st (writes i w s) := by
      unfold closedRising
      dsimp only
      rw [if_pos (by rw [hs]; rfl), if_pos hs, flag]
    rw [if_pos he, rising, stopWait_writes (s := writes i w s) hc (openIn_writes ho rfl), withCycle_writes, writes_writes]
    unfold edged
    simp only [he, decide_true, Bool.true_and, Bool.and_not_self]
    rfl
  · have plain : ({ r with flags := r.flags ||| flagBit 4 false } : Record) = r := by rw [or_flagBit_false]
    rw [if_neg he]
    simp only [he, decide_false, Bool.false_and]
    rw [plain, edged_false hc ho]

/-- An entry into CURING from a CLOSED edge that ended the charge wait, or from one that found it stopped. -/
theorem curingEntered_edged (on : Bool) (hc : (stcOf x st).cycle = some cy) (ho : openIn x i cy.record r)
    (hon : on = false → w = r) :
    curingEntered st { cy with waitRunning := cy.waitRunning && !(on && cy.waitRunning) } i
      (waitRecord (on && cy.waitRunning) cy w) (edged st (on && cy.waitRunning) cy i w x) = curingEntered st cy i w x := by
  cases on with
  | false =>
    have same : ({ cy with waitRunning := cy.waitRunning && !false } : Cycle) = cy := by
      rw [Bool.not_false, Bool.and_true]
    rw [Bool.false_and, same, waitRecord_false, hon rfl, edged_false hc ho]
  | true =>
    let c1 : Cycle := { cy with waitRunning := cy.waitRunning && !cy.waitRunning }
    let y : Block := edged st cy.waitRunning cy i w x
    have stopped : c1.waitRunning = false := Bool.and_not_self _
    have band : (stcOf y st).inBand = (stcOf x st).inBand := by
      show (stcOf (withCycle c1 st x) st).inBand = _
      rw [stcOf_withCycle]
    have cycle : curingCycle y st c1 = curingCycle x st cy := rfl
    have gate : gatedNow y st (curingCycle y st c1) = gatedNow x st (curingCycle x st cy) := by
      rw [cycle]
      exact gatedNow_congr rfl band
    have fault : anyFault y st = anyFault x st := anyFault_congr rfl rfl
    have record : curingRecord y st c1 (gatedNow x st (curingCycle x st cy)) (waitRecord cy.waitRunning cy w) =
        curingRecord x st cy (gatedNow x st (curingCycle x st cy)) w := by
      unfold curingRecord
      rw [fault, stopped, waitRecord_false]
    rw [Bool.true_and]
    show curingEntered st c1 i (waitRecord cy.waitRunning cy w) y = _
    rw [curingEntered_inCuring gate.symm, curingEntered_inCuring (x := x) rfl, record, stopped]
    exact inCuring_over _ _ _

/-! ### The scale left from an edge (R135) -/

/-- A block with one record, the stations' contexts and the conditions replaced. -/
def reframed (i : Fin 48) (w : Record) (S : Pair Stc) (D : Cdu) (x : Block) : Block :=
  { writes i w x with stc := S, cdu := D }

theorem edged_reframed (ends : Bool) : edged st ends cy i w x =
    reframed i (waitRecord ends cy w) (edged st ends cy i w x).stc (edged st ends cy i w x).cdu x := rfl

/-- A grant does not ask for the stations' contexts and the conditions. -/
theorem granted_context (S : Pair Stc) (D : Cdu) :
    granted o cy j w { x with stc := S, cdu := D } = { granted o cy j w x with stc := S, cdu := D } := by
  have hnet : filteredNet { x with stc := S, cdu := D } = filteredNet x := rfl
  unfold granted
  dsimp only
  rw [hnet]
  by_cases he : x.scu.stable = true ∧ filteredNet x ≤ x.tab.line.emptyLimit
  · rw [if_pos he, if_pos he]
    unfold attemptBegun
    rw [evaluated_eq, evaluated_eq] <;> rfl
  · rw [if_neg he, if_neg he]
    by_cases hs : x.scu.stable = true
    · rw [if_pos hs, if_pos hs, postWeigh_eq, postWeigh_eq] <;> rfl
    · rw [if_neg hs, if_neg hs]

/-- What is left of the scale as the station's session, accepted, ends with no claim waiting. -/
theorem leaveScale_accepted {u : Session} (hs : x.scu.session = some u) (hu : u.owner = st) (ha : u.state = .accepted) :
    leaveScale st x = grantOldest { x with scu := sessionless x.scu } := by
  have cut : cutSession u x = endSession x := by
    unfold cutSession
    rw [ha]
  unfold leaveScale
  rw [hs]
  refine (if_pos hu).trans ?_
  rw [cut]
  rfl

/-- The three ways a station leaves the scale as it enters CURING, the same from a reading and from an edge. -/
def Leaves (st : Station) (cy : Cycle) (i : Fin 48) (r : Record) (b F : Block) : Prop :=
  leaveScale st b = F ∧ openIn F i cy.record r ∧ F.scu.accepted = b.scu.accepted ∧
    ∀ ends w, w.number = r.number → leaveScale st (edged st ends cy i w b) = edged st ends cy i w F

theorem leaves_unclaimed (ho : openIn s i cy.record r) (h : ∀ u, s.scu.session = some u → u.owner ≠ st) :
    Leaves st cy i r s { s with scu := unclaimed st s.scu } :=
  ⟨leaveScale_of_not_owner h, openIn_congr ho rfl, rfl,
    fun ends w _ => leaveScale_of_not_owner (s := edged st ends cy i w s) h⟩

theorem leaves_sessionless {u : Session} (ho : openIn s i cy.record r) (hs : s.scu.session = some u) (hu : u.owner = st)
    (ha : u.state = .accepted) (hq : s.scu.claims = []) : Leaves st cy i r s { s with scu := sessionless s.scu } :=
  ⟨(leaveScale_accepted hs hu ha).trans (grantOldest_idle (.inr hq)), openIn_congr ho rfl, rfl,
    fun ends w _ => (leaveScale_accepted (x := edged st ends cy i w s) hs hu ha).trans (grantOldest_idle (.inr hq))⟩

theorem granted_accepted : (granted o cy j w x).scu.accepted = x.scu.accepted := by
  unfold granted
  dsimp only
  split
  · unfold attemptBegun
    rw [evaluated_eq] <;> rfl
  · split <;> rfl

theorem leaves_granted {u : Session} {rest : List Station} (hc : (stcOf s st).cycle = some cy)
    (ho : openIn s i cy.record r) (hs : s.scu.session = some u) (hu : u.owner = st) (ha : u.state = .accepted)
    (hq : s.scu.claims = o :: rest) (hy : (stcOf s o).cycle = some cy') (hw : openIn s j cy'.record w)
    (hn : cy'.record ≠ cy.record) : Leaves st cy i r s (granted o cy' j w { s with scu := sessionless s.scu }) := by
  let y : Block := { s with scu := sessionless s.scu }
  have hwy : openIn y j cy'.record w := openIn_congr hw rfl
  obtain ⟨hij, hoy⟩ := openIn_granted (o := o) hwy (openIn_congr ho rfl : openIn y i cy.record r) hn
  obtain ⟨w', -, hg⟩ := granted_spec (o := o) hwy
  have ne : o ≠ st := fun h => hn (by
    rw [h, hc] at hy
    cases hy
    rfl)
  refine ⟨(leaveScale_accepted hs hu ha).trans (grantOldest_granted (s := y) rfl hq hy hwy), hoy, granted_accepted,
    fun ends v hv => ?_⟩
  let e : Block := edged st ends cy i v y
  have hye : (stcOf e o).cycle = some cy' := by
    have other : o = otherStation st := by cases o <;> cases st <;> first | rfl | exact absurd rfl ne
    have hst : stcOf e (otherStation st) = stcOf s (otherStation st) :=
      stcOf_modStc_other s st fun c => { c with cycle := some { cy with waitRunning := cy.waitRunning && !ends } }
    rw [other, hst, ← other]
    exact hy
  have hwe : openIn e j cy'.record w := by
    obtain ⟨h1, h2, h3⟩ := hwy
    refine ⟨(vget_vset_ne _ _ hij).trans h1, h2, fun m hm => ?_⟩
    show slotNumber (vget (vset s.hst.slots i (.held .opened (waitRecord ends cy v))) m) ≠ _
    rw [vget_vset]
    split
    · show v.number ≠ _
      rw [hv, ho.2.1]
      exact Ne.symm hn
    · exact h3 m hm
  have left : leaveScale st (edged st ends cy i v s) = grantOldest e :=
    leaveScale_accepted (x := edged st ends cy i v s) hs hu ha
  have grants : grantOldest e = granted o cy' j w e := grantOldest_granted (s := e) rfl hq hye hwe
  have context := granted_context (o := o) (cy := cy') (j := j) (w := w) (x := writes i (waitRecord ends cy v) y) e.stc e.cdu
  rw [granted_writes hij] at context
  rw [left, grants]
  refine Eq.trans context ?_
  rw [hg]
  rfl

/-! ### The readings (R72, R75) -/

theorem pressLoad_enters (hs : (stcOf s st).state = .pressLoad) (hc : (stcOf s st).cycle = some cy)
    (ho : openIn s i cy.record r) (hf : (closedFresh s st && tonnageFresh s st cy.recipe.minTonnage) = true)
    (hF : Leaves st cy i r s F) (edge : Edge) :
    tonnageReading st v s = curingEntered st cy i r F ∧
    closedReading st edge s = curingEntered st cy i
      { r with flags := r.flags ||| flagBit 4 (decide (edge = .rising) && !(stcOf s st).closeOk) } F := by
  obtain ⟨hleave, hoF, -, hedged⟩ := hF
  have only : ScaleOnly s F := hleave ▸ scaleOnly_leaveScale st s
  have hcF : (stcOf F st).cycle = some cy := by rw [only.stcOf]; exact hc
  constructor
  · unfold tonnageReading
    rw [if_neg (by unfold stateOf; rw [hs]; decide), cureTest_enters hs hc hf,
      enterCuring_entered hleave hcF hoF only.tab, judgeGate_curingEntered hoF rfl]
  · let w : Record := { r with flags := r.flags ||| flagBit 4 (decide (edge = .rising) && !(stcOf s st).closeOk) }
    let ends : Bool := decide (edge = .rising) && cy.waitRunning
    let c1 : Cycle := { cy with waitRunning := cy.waitRunning && !ends }
    have hstc (x : Block) : stcOf (edged st ends cy i w x) st = { stcOf x st with cycle := some c1 } :=
      stcOf_modStc_self x st fun c => { c with cycle := some c1 }
    have hoe : openIn (edged st ends cy i w F) i cy.record (waitRecord ends cy w) :=
      openIn_congr (openIn_writes (s := F) (x := waitRecord ends cy w) hoF rfl) rfl
    have enters : enterCuring st (edged st ends cy i w s) =
        curingEntered st c1 i (waitRecord ends cy w) (edged st ends cy i w F) :=
      enterCuring_entered (hedged ends w rfl) (by rw [hstc]) hoe only.tab
    have overwritten : curingEntered st c1 i (waitRecord ends cy w) (edged st ends cy i w F) = curingEntered st cy i w F :=
      curingEntered_edged (decide (edge = .rising)) hcF hoF fun h => by
        show ({ r with flags := r.flags ||| flagBit 4 (decide (edge = .rising) && !(stcOf s st).closeOk) } : Record) = r
        rw [h, Bool.false_and, or_flagBit_false]
    have load : (stcOf (edged st ends cy i w s) st).state = .pressLoad := by rw [hstc]; exact hs
    have cycle : (stcOf (edged st ends cy i w s) st).cycle = some c1 := by rw [hstc]
    unfold closedReading
    rw [closedRising_pressLoad hs hc ho]
    refine (congrArg (judgeGate st) ((cureTest_enters load cycle hf).trans (enters.trans overwritten))).trans ?_
    exact judgeGate_curingEntered hoF rfl

end Press

end Sys2Proof.Machine
end

section
/-! PROOFS. The ends of CURING, the press edges in the other states, and O46 from them. -/

namespace Sys2Proof.Machine

open Sys2Proof

section Ends

variable {s : Block} {st : Station} {cy k : Cycle} {i : Fin 48} {r w : Record} {v : Int} {p : StepCopy}

/-! ### The ends of CURING (R74 to R76) -/

theorem curedRecord_eq : curedRecord cy r =
    { r with flags := r.flags ||| flagBit 6 (allowanceBroken cy), cure := r.cure.map (withCure cy) } := by
  unfold curedRecord
  rw [judgedRecord_eq]

/-- CURING ends in OPENING with a cycle and a record as an event before left them. -/
theorem enterOpening_after (ho : openIn s i cy.record r) (hk : k.record = cy.record) (hw : w.number = r.number) :
    enterOpening st (writes i w (withCycle k st s)) = writes i (curedRecord k w) (modStc st (openedStc k) s) := by
  have hc : (stcOf (writes i w (withCycle k st s)) st).cycle = some k := by rw [stcOf_writes, stcOf_withCycle]
  have how : openIn (writes i w (withCycle k st s)) i k.record w := hk ▸ openIn_writes (openIn_congr ho rfl) hw
  rw [enterOpening_writes hc how, modStc_writes, writes_writes]
  unfold withCycle
  rw [modStc_modStc]
  rfl

theorem withCycle_opens (ho : openIn s i cy.record r) (hk : k.record = cy.record) :
    withCycle k st s = writes i r (withCycle k st s) := (writes_self (hk ▸ openIn_congr ho rfl : openIn _ i k.record r)).symm

theorem accrualDone_opens (hs : (stcOf s st).state = .curing) (hc : (stcOf s st).cycle = some cy)
    (ho : openIn s i cy.record r) (h : cy.accruing = true) :
    let k := { cy with accrued := cy.recipe.cure * 100 }
    accrualDone st s = writes i (curedRecord k r) (modStc st (openedStc k) s) := by
  intro k
  unfold accrualDone stateOf
  rw [hs, hc]
  refine (if_pos h).trans ?_
  rw [modCycle_withCycle hc, withCycle_opens (k := k) ho rfl]
  exact enterOpening_after ho rfl rfl

theorem accrualDone_idle (hc : (stcOf s st).cycle = some cy) (h : cy.accruing = false) : accrualDone st s = s := by
  unfold accrualDone stateOf
  rw [hc]
  split
  · next c _ hcy =>
    cases hcy
    exact if_neg (by rw [h]; decide)
  · rfl

theorem maxCureDone_opens (hs : (stcOf s st).state = .curing) (hc : (stcOf s st).cycle = some cy)
    (ho : openIn s i cy.record r) (h : cy.elapsedRunning = true) :
    let k := { cy with elapsed := cy.recipe.maxCure * 100 }
    maxCureDone st s =
      writes i (curedRecord k { r with flags := r.flags ||| flagBit 2 true }) (modStc st (openedStc k) s) := by
  intro k
  have hck : (stcOf (withCycle k st s) st).cycle = some k := by rw [stcOf_withCycle]
  unfold maxCureDone stateOf
  rw [hs, hc]
  refine (if_pos h).trans ?_
  rw [modCycle_withCycle hc, setFlag_writes hck (openIn_congr ho rfl : openIn (withCycle k st s) i k.record r)]
  exact enterOpening_after (w := { r with flags := r.flags ||| flagBit 2 true }) ho rfl rfl

theorem maxCureDone_idle (hc : (stcOf s st).cycle = some cy) (h : cy.elapsedRunning = false) : maxCureDone st s = s := by
  unfold maxCureDone stateOf
  rw [hc]
  split
  · next c _ hcy =>
    cases hcy
    exact if_neg (by rw [h]; decide)
  · rfl

theorem allowancePassed_writes (hs : (stcOf s st).state = .curing) (hc : (stcOf s st).cycle = some cy)
    (ho : openIn s i cy.record r) (h : cy.outCounting = true) :
    let k := { cy with outOfBand := max cy.outOfBand (cy.recipe.allowance * 1000 + 1) }
    allowancePassed st s = writes i { r with flags := r.flags ||| flagBit 6 true } (withCycle k st s) := by
  intro k
  have hck : (stcOf (withCycle k st s) st).cycle = some k := by rw [stcOf_withCycle]
  unfold allowancePassed stateOf
  rw [hs, hc]
  refine (if_pos h).trans ?_
  rw [modCycle_withCycle hc]
  exact setFlag_writes hck (openIn_congr ho rfl : openIn (withCycle k st s) i k.record r) _

theorem allowancePassed_idle (hc : (stcOf s st).cycle = some cy) (h : cy.outCounting = false) :
    allowancePassed st s = s := by
  unfold allowancePassed stateOf
  rw [hc]
  split
  · next c _ hcy =>
    cases hcy
    exact if_neg (by rw [h]; decide)
  · rfl

/-- A count of a cycle that an event brings on changes no station's state or permits. -/
theorem event_withCycle {f : Block → Block} (hf : f s = writes i w (withCycle k st s)) (hc : (stcOf s st).cycle = some cy)
    (hn : k.record = cy.record) : event f s = f s := by
  have other (x : Station) (hx : x ≠ st) : stcOf (withCycle k st s) x = stcOf s x := by
    unfold withCycle
    rw [stcOf_modStc, if_neg (Ne.symm hx)]
  have stcx (x : Station) : stcOf (f s) x = stcOf (withCycle k st s) x := by rw [hf]; rfl
  apply event_eq
  · intro x
    by_cases hx : x = st
    · subst hx
      unfold permitOf permitRecord
      rw [stcx, stcOf_withCycle, hc]
      simp [hn]
    · apply permitOf_congr <;> rw [stcx, other x hx]
  · intro x
    unfold stateOf
    by_cases hx : x = st
    · subst hx
      rw [stcx, stcOf_withCycle]
    · rw [stcx, other x hx]

theorem event_idle {f : Block → Block} (h : f s = s) : event f s = s := by
  rw [event_of_stc f s (by rw [h]), h]

/-! ### Press readings outside PRESS_LOAD (R73, R75, R77) -/

theorem tonnageReading_idle (h1 : (stcOf s st).state ≠ .curing) (h2 : (stcOf s st).state ≠ .pressLoad) :
    tonnageReading st v s = s := by
  unfold tonnageReading
  rw [if_neg (show ¬ stateOf s st = .curing from h1), cureTest_idle (.inl h2), judgeGate_idle h1]

/-- A block in which the gate of a station in CURING is judged. -/
def gateJudged (st : Station) (k : Cycle) (i : Fin 48) (r : Record) (s : Block) : Block :=
  writes i (judgedRecord (gatedNow s st k) r) (withCycle (gatedNow s st k) st s)

theorem judgeGate_after (hs : (stcOf s st).state = .curing) (ho : openIn s i cy.record r) (hk : k.record = cy.record)
    (hw : w.number = r.number) : judgeGate st (writes i w (withCycle k st s)) = gateJudged st k i w s := by
  have hst : stcOf (writes i w (withCycle k st s)) st = { stcOf s st with cycle := some k } := by
    rw [stcOf_writes, stcOf_withCycle]
  have gate : gatedNow (writes i w (withCycle k st s)) st k = gatedNow s st k := gatedNow_congr rfl (by rw [hst])
  have how : openIn (writes i w (withCycle k st s)) i k.record w := hk ▸ openIn_writes (openIn_congr ho rfl) hw
  rw [judgeGate_writes (by rw [hst]; exact hs) (by rw [hst]) how, gate, withCycle_writes, writes_writes,
    withCycle_withCycle]
  rfl

theorem tonnageReading_curing (hs : (stcOf s st).state = .curing) (hc : (stcOf s st).cycle = some cy)
    (ho : openIn s i cy.record r) :
    tonnageReading st v s = gateJudged st { cy with peakTonnage := max cy.peakTonnage v.toNat } i r s := by
  let k : Cycle := { cy with peakTonnage := max cy.peakTonnage v.toNat }
  have raised : raisePeak st v s = writes i r (withCycle k st s) := by
    unfold raisePeak
    rw [modCycle_withCycle hc]
    exact withCycle_opens (k := k) ho rfl
  have still : (stcOf (writes i r (withCycle k st s)) st).state ≠ .pressLoad := by
    rw [stcOf_writes, stcOf_withCycle]
    show (stcOf s st).state ≠ .pressLoad
    rw [hs]
    decide
  unfold tonnageReading
  rw [if_pos (show stateOf s st = .curing from hs), raised, cureTest_idle (.inl still)]
  exact judgeGate_after hs ho rfl rfl

/-- The record and the block after a CLOSED edge in a cycle state other than PRESS_LOAD. -/
theorem closedRising_flags (hs : (stcOf s st).state ≠ .pressLoad) (hcyc : isCycleState (stcOf s st).state = true)
    (hc : (stcOf s st).cycle = some cy) (ho : openIn s i cy.record r) (edge : Edge) :
    (if edge = .rising then closedRising st s else s) =
      writes i { r with flags := r.flags ||| flagBit 4 (decide (edge = .rising) && !(stcOf s st).closeOk) } s := by
  have set := setFlag_if hc ho .unpermittedClose (decide (edge = .rising) && !(stcOf s st).closeOk)
  refine Eq.trans ?_ set
  by_cases he : edge = .rising
  · rw [if_pos he]
    unfold closedRising
    dsimp only
    rw [if_pos hcyc, if_neg hs]
    cases (stcOf s st).closeOk <;> simp [he]
  · rw [if_neg he, if_neg (by simp [he])]

theorem closedReading_curing (hs : (stcOf s st).state = .curing) (hc : (stcOf s st).cycle = some cy)
    (ho : openIn s i cy.record r) (edge : Edge) : closedReading st edge s = gateJudged st cy i
      { r with flags := r.flags ||| flagBit 4 (decide (edge = .rising) && !(stcOf s st).closeOk) } s := by
  let w : Record := { r with flags := r.flags ||| flagBit 4 (decide (edge = .rising) && !(stcOf s st).closeOk) }
  have same : withCycle cy st s = s := modStc_of_fixed (by rw [← hc])
  have judged := judgeGate_after (st := st) (k := cy) (w := w) hs ho rfl rfl
  rw [same] at judged
  unfold closedReading
  rw [closedRising_flags (by rw [hs]; decide) (by rw [hs]; rfl) hc ho,
    cureTest_idle (s := writes i w s) (.inl (by rw [stcOf_writes, hs]; decide))]
  exact judged

theorem closedReading_idle (h1 : (stcOf s st).state ≠ .curing) (h2 : (stcOf s st).state ≠ .pressLoad)
    (hc : (stcOf s st).cycle = some cy) (ho : openIn s i cy.record r) (edge : Edge) : closedReading st edge s =
      if isCycleState (stcOf s st).state = true ∧ edge = .rising ∧ (stcOf s st).closeOk = false then
        writes i { r with flags := r.flags ||| flagBit 4 true } s else s := by
  have after (x : Block) (hx : (stcOf x st).state = (stcOf s st).state) : judgeGate st (cureTest st x) = x := by
    rw [cureTest_idle (.inl (by rw [hx]; exact h2)), judgeGate_idle (by rw [hx]; exact h1)]
  unfold closedReading
  by_cases hcyc : isCycleState (stcOf s st).state = true
  · refine (congrArg (fun x => judgeGate st (cureTest st x)) (closedRising_flags h2 hcyc hc ho edge)).trans
      ((after (writes i _ s) rfl).trans ?_)
    by_cases he : edge = .rising ∧ (stcOf s st).closeOk = false
    · rw [if_pos ⟨hcyc, he⟩]
      simp [he.1, he.2]
    · have none : (decide (edge = .rising) && !(stcOf s st).closeOk) = false := by
        rw [← Bool.not_eq_true, Bool.and_eq_true, decide_eq_true_iff, Bool.not_eq_true']
        exact he
      rw [if_neg (fun h => he h.2), none, or_flagBit_false]
      exact writes_self ho
  · have same : (if edge = .rising then closedRising st s else s) = s := by
      split
      · exact if_neg hcyc
      · rfl
    rw [same, after s rfl, if_neg (fun h => hcyc h.1)]

/-! ### OPENED (R78, R79, R149) -/

theorem openedRising_idle (h : (stcOf s st).state ≠ .opening ∧ (stcOf s st).state ≠ .curing) : openedRising st s = s := by
  unfold openedRising stateOf
  split
  · next hs => exact absurd hs h.1
  · next hs => exact absurd hs h.2
  · rfl

/-- The chain starts with its first step (R149). -/
theorem startChain_issued (hc : (stcOf s st).cycle = some cy) (ho : openIn s i cy.record r)
    (hp : cy.steps.head? = some p) : startChain st s = issued st p p.mask
      (modDms st (startedDms p.mask) (writes i { r with demould := some emptyDemould } s)) := by
  have hsteps : stepsOf s st = cy.steps := by unfold stepsOf; rw [hc]
  let y : Block := writes i { r with demould := some emptyDemould } s
  have hd : dmsOf (modDms st (startedDms p.mask) y) st = startedDms p.mask (dmsOf y st) := dmsOf_modDms_self y st _
  have first : cy.steps[0]? = some p := by rw [← List.head?_eq_getElem?]; exact hp
  have current : currentStep (modDms st (startedDms p.mask) y) st = some p :=
    currentStep_of_cycle (n := 0) hc (by rw [hd]; rfl) first
  unfold startChain
  rw [hsteps, hp]
  dsimp only
  rw [modOpenRecord_writes hc ho, issueStep_issued current, hd]
  rfl

end Ends

/-- Settles O46: the ends of CURING, the gate, the press readings in each state, and the start of the chain. -/
theorem cureExits : Obligations.CureExits := by
  intro st s cy i r b c signal bit broken stopped cured shut press gated hc ho
  have hst : stcOf b st = c := rfl
  refine ⟨fun hs hheld => ?_, fun hs => ?_, fun hs v edge => ?_, fun h1 h2 v edge => ?_, fun v edge => ⟨fun h => ?_,
    fun p hp => ?_⟩⟩
  · intro opens
    have opening {act : Block → Block} {cmd : Instr} {k : Cycle} {flags : BitVec 16}
        (hcmd : exec cmd s = finish (event (act)) s) (hk : k.record = cy.record) (hrec : k.recipe = cy.recipe)
        (hact : act b = writes i (curedRecord k { r with flags := flags }) (modStc st (openedStc k) b)) :
        opens cmd k flags := by
      have result : writes i (curedRecord k { r with flags := flags }) (modStc st (openedStc k) b) =
          writes i (cured k flags) (modStc st (openedStc k) b) := by
        rw [curedRecord_eq]
        rfl
      have done := event_opened hact hc hk hrec hs hheld
      rw [hact, result] at done
      exact hcmd.trans (finish_eq done)
    refine ⟨fun h => opening rfl rfl rfl (accrualDone_opens hs hc ho h), fun h => finish_eq (event_idle (accrualDone_idle hc h)),
      fun h => opening rfl rfl rfl (maxCureDone_opens hs hc ho h), fun h => finish_eq (event_idle (maxCureDone_idle hc h)),
      fun h => ?_, fun h => finish_eq (event_idle (allowancePassed_idle hc h))⟩
    have passed := allowancePassed_writes hs hc ho h
    exact finish_eq ((event_withCycle passed hc rfl).trans passed)
  · intro judged
    have result (k : Cycle) (flags : BitVec 16) (hk : k.recipe = cy.recipe) :
        gateJudged st k i { r with flags := flags } b = judged k flags := by
      have gate : gatedNow b st k = gated k := by
        unfold gatedNow
        rw [hk]
        rfl
      unfold gateJudged
      rw [gate, judgedRecord_eq]
      rfl
    have same : withCycle cy st b = b := modStc_of_fixed (by rw [← hc])
    have fault : judgeGate st b = judged cy r.flags := by
      have gate := judgeGate_after (st := st) (k := cy) (w := r) hs ho rfl rfl
      rw [same, writes_self ho] at gate
      exact gate.trans (result cy r.flags rfl)
    refine ⟨fault, fault, fun v edge => ⟨(tonnageReading_curing hs hc ho).trans (result _ r.flags rfl),
      (closedReading_curing hs hc ho edge).trans (result cy _ rfl)⟩⟩
  · intro aged waited' seen flags
    refine ⟨fun hf => ?_, fun hf => ?_⟩
    · intro ends
      have notCuring : (stcOf b st).state ≠ .curing := by rw [hst, hs]; decide
      have hE := stcOf_modStc_self b st fun c => { c with cycle := some { cy with waitRunning := cy.waitRunning && !ends } }
      refine ⟨?_, ?_⟩
      · show tonnageReading st v b = b
        unfold tonnageReading
        rw [if_neg (show ¬ stateOf b st = .curing from notCuring), cureTest_idle (.inr ⟨cy, hc, hf⟩), judgeGate_idle notCuring]
      · let w : Record := { r with flags := flags }
        have hstc : stcOf (edged st ends cy i w b) st =
            { stcOf b st with cycle := some { cy with waitRunning := cy.waitRunning && !ends } } := hE
        show closedReading st edge b = _
        unfold closedReading
        rw [closedRising_pressLoad hs hc ho edge]
        refine (congrArg (judgeGate st) (cureTest_idle (s := edged st ends cy i w b) (.inr
          ⟨{ cy with waitRunning := cy.waitRunning && !ends }, ?_, hf⟩))).trans
          (judgeGate_idle (s := edged st ends cy i w b) ?_)
        · exact congrArg (fun c => c.cycle) hstc
        · rw [hstc]; exact notCuring
    · intro ends k entered enters
      have result {F : Block} (hF : Leaves st cy i r b F) (f : BitVec 16) :
          curingEntered st cy i { r with flags := f } F = entered f F := by
        obtain ⟨hleave, -, hacc, -⟩ := hF
        have only : ScaleOnly b F := hleave ▸ scaleOnly_leaveScale st b
        have tonnage : heldOf F (signal .tonnage) = heldOf b (signal .tonnage) := heldOf_congr only.tab _
        have cycle : curingCycle F st cy = { cy with
            waitRunning := false, elapsedRunning := true, elapsed := 0
            peakTonnage := (heldOf b (signal .tonnage)).toNat } := by
          unfold curingCycle
          rw [tonnage]
        have gate : gatedNow F st (curingCycle F st cy) = k := by
          rw [cycle, gatedNow_congr (x := b) only.tab (by rw [only.stcOf])]
          rfl
        have zrg : F.zrg = b.zrg := by rw [only]
        have fault : anyFault F st = anyFault b st := anyFault_congr only.tab (by rw [zrg])
        rw [curingEntered_inCuring gate.symm]
        unfold inCuring curingRecord
        rw [fault, hacc, zrg]
        rfl
      have entersBy {F : Block} (hF : Leaves st cy i r b F) : enters F := by
        obtain ⟨ht, hclosed⟩ := pressLoad_enters (v := v) hs hc ho hf hF edge
        exact ⟨ht.trans (result hF r.flags), hclosed.trans (result hF flags)⟩
      exact ⟨fun h => entersBy (leaves_unclaimed ho h), fun u hu hown hacc =>
        ⟨fun hq => entersBy (leaves_sessionless ho hu hown hacc hq),
          fun o rest cy' j w hq hy hw hn => entersBy (leaves_granted hc ho hu hown hacc hq hy hw hn)⟩⟩
  · exact ⟨tonnageReading_idle h1 h2, closedReading_idle h1 h2 hc ho edge⟩
  · show (if edge = .rising then openedRising st b else b) = b
    split
    · next he => exact openedRising_idle (h.resolve_left (not_not_intro he))
    · rfl
  · intro started begun
    refine ⟨fun hs => ?_, fun hs => ?_⟩
    · let x : Block := modStc st (fun c => { c with state := .demoulding, openOk := false }) b
      have hx := stcOf_modStc_self b st fun c => { c with state := .demoulding, openOk := false }
      have opens : openedRising st b = startChain st x := by
        unfold openedRising stateOf
        rw [show (stcOf b st).state = .opening from hs]
      exact opens.trans (startChain_issued (s := x) (by rw [hx]; exact hc) (openIn_congr ho rfl) hp)
    · let w : Record := { r with flags := r.flags ||| flagBit 3 true }
      let x : Block := writes i (curedRecord cy w)
        (modStc st (fun c => { c with state := .demoulding, cycle := some (stoppedCycle cy) }) b)
      have hx : stcOf x st = { stcOf b st with state := .demoulding, cycle := some (stoppedCycle cy) } :=
        stcOf_modStc_self b st fun c => { c with state := .demoulding, cycle := some (stoppedCycle cy) }
      have opens : openedRising st b = startChain st x := by
        unfold openedRising stateOf
        rw [show (stcOf b st).state = .curing from hs]
        refine congrArg (startChain st) ?_
        have flag : setFlag st .earlyOpen b = writes i w b := setFlag_writes hc ho _
        rw [flag, exitCuring_writes (s := writes i w b) hc (openIn_writes ho rfl), modStc_writes,
          writes_writes]
        unfold setState
        rw [modStc_writes, modStc_modStc]
      have hox : openIn x i (stoppedCycle cy).record (curedRecord cy w) := openIn_writes (openIn_congr ho rfl) rfl
      refine opens.trans ((startChain_issued (s := x) (cy := stoppedCycle cy) (by rw [hx]) hox hp).trans ?_)
      rw [curedRecord_eq]
      refine congrArg (fun y => issued st p p.mask (modDms st started y)) ?_
      exact writes_writes i _ _ _

end Sys2Proof.Machine
end

section
/-! PROOFS. The weighing: readings, the session's evaluation, captures and rejects: O50. -/

namespace Sys2Proof.Machine

open Sys2Proof

section Weighing

variable {s x : Block} {st o : Station} {cy k : Cycle} {i j : Fin 48} {r w : Record} {u : Session} {n : Nat} {v : Int}

/-! ### The window (R125 to R127) -/

theorem spreadOf_le (band : Nat) : spreadOf s ≤ (band : Int) ↔ ∀ a ∈ netsOf s, ∀ b ∈ netsOf s, a - b ≤ (band : Int) := by
  unfold spreadOf
  cases hmax : (netsOf s).max? with
  | none =>
    rw [List.max?_eq_none_iff] at hmax
    simp [hmax]
  | some hi =>
    cases hmin : (netsOf s).min? with
    | none =>
      rw [List.min?_eq_none_iff] at hmin
      simp [hmin] at hmax
    | some lo =>
      obtain ⟨hhi, hmax⟩ := List.max?_eq_some_iff.mp hmax
      obtain ⟨hlo, hmin⟩ := List.min?_eq_some_iff.mp hmin
      constructor
      · intro h a ha b hb
        have h1 := hmax a ha
        have h2 := hmin b hb
        dsimp only at h
        omega
      · intro h
        exact h hi hhi lo hlo

theorem filteredNet_eq (s : Block) : filteredNet s =
    if 2 ^ s.tab.line.windowCode ≤ s.scu.window.length then
      ((s.scu.window.map (·.net)).sum + (2 ^ s.tab.line.windowCode / 2 : Nat)) / ((2 ^ s.tab.line.windowCode : Nat) : Int)
    else ((s.scu.window.map (·.net)).getLast?).getD 0 := by
  unfold filteredNet
  simp only [windowFull_iff]
  rfl

/-- The blocks after the steps of a SCALE_RAW reading that come before the session's evaluation (R125). -/
def weighed (v : Int) (s : Block) : Block :=
  let l := s.tab.line
  let gross : Int := ((v - l.zero) * l.span + 32768) / 65536
  let excess := decide ((l.capacity : Int) < gross)
  let held : List Reading := (if 2 ^ l.windowCode ≤ s.scu.window.length then s.scu.window.tail else s.scu.window) ++
    [{ raw := v, net := gross - s.scu.tare }]
  let nets : List Int := held.map (·.net)
  let band : Nat := if s.scu.stable = true then l.leaveBand else l.stableBand
  { setLevel .scaleOverload excess s with
    scu := { s.scu with
      latestGross := some gross, overload := excess, window := held
      stable := decide (2 ^ l.windowCode ≤ held.length ∧ ∀ a ∈ nets, ∀ b ∈ nets, a - b ≤ (band : Int)) } }

theorem takeReading_weighed : takeReading v s = weighed v s := by
  have gross : grossOf s.tab.line v = ((v - s.tab.line.zero) * s.tab.line.span + 32768) / 65536 := rfl
  let g := grossOf s.tab.line v
  let excess := decide ((s.tab.line.capacity : Int) < g)
  let held : List Reading := (if 2 ^ s.tab.line.windowCode ≤ s.scu.window.length then s.scu.window.tail else s.scu.window) ++
    [({ raw := v, net := g - s.scu.tare } : Reading)]
  let nets : List Int := held.map (·.net)
  let y : Block := { setLevel .scaleOverload excess s with
    scu := { s.scu with latestGross := some g, overload := excess, window := held } }
  have hy : modScu (fun u => { u with window := (if windowLength s.tab.line ≤ u.window.length then u.window.tail
      else u.window) ++ [({ raw := v, net := g - s.scu.tare } : Reading)] })
      (judgeOverload (modScu (fun u => { u with latestGross := some g }) s)) = y := by
    unfold judgeOverload
    dsimp only [modScu]
    rw [setLevel_spec]
    show _ = { setLevel .scaleOverload excess s with
      scu := { s.scu with latestGross := some g, overload := excess, window := held } }
    rw [setLevel_spec .scaleOverload excess s]
    rfl
  have htab : y.tab = s.tab := by
    show (setLevel .scaleOverload excess s).tab = s.tab
    rw [setLevel_spec]
  have stable : stableAfter y = decide (2 ^ s.tab.line.windowCode ≤ held.length ∧
      ∀ a ∈ nets, ∀ b ∈ nets, a - b ≤ ((if s.scu.stable = true then s.tab.line.leaveBand else s.tab.line.stableBand : Nat) : Int)) := by
    unfold stableAfter
    rw [Bool.eq_iff_iff, Bool.and_eq_true, windowFull_iff, decide_eq_true_iff, decide_eq_true_iff, spreadOf_le, htab]
    rfl
  have taken := congrArg (fun y => modScu (fun u => { u with stable := stableAfter y }) y) hy
  rw [stable] at taken
  exact taken

/-! ### Records under another station's grant (R134, R137) -/

theorem openIn_modRecord {m : Nat} {f : Record → Record} (h : openIn s i n r) (hf : ∀ x, (f x).number = x.number) :
    ∃ r', openIn (modRecord m f s) i n r' ∧ (m ≠ n → r' = r) := by
  obtain ⟨h1, h2, h3⟩ := h
  have slot (j : Fin 48) : vget (modRecord m f s).hst.slots j = writeSlot m f (vget s.hst.slots j) := vget_vmap _ _ _
  have number (j : Fin 48) : slotNumber (writeSlot m f (vget s.hst.slots j)) = slotNumber (vget s.hst.slots j) := by
    cases vget s.hst.slots j with
    | free => rfl
    | held k x =>
      cases k with
      | closed | sent => rfl
      | opened =>
        unfold writeSlot
        dsimp only
        split
        · exact hf x
        · rfl
  have others (j : Fin 48) (hj : j ≠ i) : slotNumber (vget (modRecord m f s).hst.slots j) ≠ n := by
    rw [slot, number]
    exact h3 j hj
  by_cases hm : r.number = m
  · refine ⟨f r, ⟨?_, (hf r).trans h2, others⟩, fun hne => absurd (hm.symm.trans h2) hne⟩
    rw [slot, h1]
    exact if_pos hm
  · refine ⟨r, ⟨?_, h2, others⟩, fun _ => rfl⟩
    rw [slot, h1]
    exact if_neg hm

theorem openIn_modOpenRecord {f : Record → Record} (h : openIn s i n r) (hf : ∀ x, (f x).number = x.number) :
    ∃ r', openIn (modOpenRecord st f s) i n r' ∧ ((∀ k, (stcOf s st).cycle = some k → k.record ≠ n) → r' = r) := by
  unfold modOpenRecord
  cases hc : (stcOf s st).cycle with
  | none => exact ⟨r, h, fun _ => rfl⟩
  | some k =>
    obtain ⟨r', ho, hr⟩ := openIn_modRecord (m := k.record) h hf
    exact ⟨r', ho, fun hk => hr (hk k rfl)⟩

/-- The oldest claim granted, by cases of what the scale reads. -/
theorem grantOldest_cons {rest : List Station} (hs : s.scu.session = none) (hq : s.scu.claims = o :: rest) :
    grantOldest s = match (stcOf s o).cycle with
      | some c => evalClearing { s with scu := { s.scu with claims := rest, session := some (newSession o c.recipe) } }
      | none => { s with scu := { s.scu with claims := rest } } := by
  unfold grantOldest
  rw [hs, hq]
  rfl

/-- An evaluation in LOADING leaves records, claims and the session's owner. -/
theorem evalLoading_keeps (h : x.scu.session = some u) : (evalLoading x).hst = x.hst ∧
    (evalLoading x).scu.claims = x.scu.claims ∧ ∀ a, (evalLoading x).scu.session = some a → a.owner = u.owner := by
  rw [evalLoading_evaluated h, evaluated_eq]
  refine ⟨rfl, rfl, fun a ha => ?_⟩
  cases ha
  rfl

/-- The first attempt of a session, or the wait for an empty scale, leaves the claims and the session's owner, and the
records but for the owner's. -/
theorem evalClearing_keeps (h : x.scu.session = some u) (ho : openIn x i n r) :
    (evalClearing x).scu.claims = x.scu.claims ∧ (∀ a, (evalClearing x).scu.session = some a → a.owner = u.owner) ∧
      ∃ r', openIn (evalClearing x) i n r' ∧ ((∀ k, (stcOf x u.owner).cycle = some k → k.record ≠ n) → r' = r) := by
  unfold evalClearing
  rw [h]
  dsimp only
  split
  · let y : Block := modScu (fun v => { v with loading := startTimer (x.tab.line.maxLoading * 1000) })
      (modSession (fun v => { v with state := .loading, attempts := u.attempts + 1, nearSent := false }) x)
    obtain ⟨r', hor, hr⟩ := openIn_modOpenRecord (st := u.owner) (s := y) (f := withCharge (u.attempts + 1) .pending 0)
      (openIn_congr ho rfl) (fun _ => rfl)
    have scu : (modOpenRecord u.owner (withCharge (u.attempts + 1) .pending 0) y).scu = y.scu := by
      unfold modOpenRecord
      split <;> rfl
    have session : (modOpenRecord u.owner (withCharge (u.attempts + 1) .pending 0) y).scu.session =
        some { u with state := .loading, attempts := u.attempts + 1, nearSent := false } := by
      rw [scu]
      show Option.map _ x.scu.session = _
      rw [h]
      rfl
    obtain ⟨hhst, hclaims, howner⟩ := evalLoading_keeps session
    have enters : enterLoading x = evalLoading (modOpenRecord u.owner (withCharge (u.attempts + 1) .pending 0) y) := by
      unfold enterLoading
      rw [h]
    rw [enters]
    refine ⟨hclaims.trans (by rw [scu]; rfl), howner, r', openIn_congr hor (by rw [hhst]), hr⟩
  · split
    · unfold notify
      rw [postWeigh_eq]
      refine ⟨rfl, fun a ha => ?_, r, openIn_congr ho rfl, fun _ => rfl⟩
      have session : Option.map (fun v : Session => { v with clearSent := true }) x.scu.session = some a := ha
      rw [h] at session
      cases session
      rfl
    · refine ⟨rfl, fun a ha => ?_, r, ho, fun _ => rfl⟩
      rw [h] at ha
      cases ha
      rfl

/-- A grant serves a station that waits, and leaves the records but for that station's. -/
theorem grantOldest_keeps (hs : s.scu.session = none) (ho : openIn s i n r) :
    (∀ c ∈ (grantOldest s).scu.claims, c ∈ s.scu.claims) ∧
    (∀ a, (grantOldest s).scu.session = some a → a.owner ∈ s.scu.claims) ∧
    ∃ r', openIn (grantOldest s) i n r' ∧
      ((∀ o k, o ∈ s.scu.claims → (stcOf s o).cycle = some k → k.record ≠ n) → r' = r) := by
  cases hq : s.scu.claims with
  | nil =>
    rw [grantOldest_idle (.inr hq)]
    refine ⟨by rw [hq]; exact fun c hc => hc, fun a ha => ?_, r, ho, fun _ => rfl⟩
    rw [hs] at ha
    cases ha
  | cons o rest =>
    rw [grantOldest_cons hs hq]
    cases hc : (stcOf s o).cycle with
    | none =>
      refine ⟨fun c hc => List.mem_cons_of_mem o hc, fun a ha => ?_, r, openIn_congr ho rfl, fun _ => rfl⟩
      rw [show ({ s with scu := { s.scu with claims := rest } } : Block).scu.session = none from hs] at ha
      cases ha
    | some k =>
      let y : Block := { s with scu := { s.scu with claims := rest, session := some (newSession o k.recipe) } }
      obtain ⟨hclaims, howner, r', hor, hr⟩ := evalClearing_keeps (x := y) (u := newSession o k.recipe) rfl
        (openIn_congr ho rfl)
      refine ⟨fun c hc => ?_, fun a ha => ?_, r', hor, fun hk => hr fun k' hk' => hk o k' List.mem_cons_self hk'⟩
      · have hmem : c ∈ (evalClearing y).scu.claims := hc
        rw [hclaims] at hmem
        exact List.mem_cons_of_mem o hmem
      · rw [howner a ha]
        exact List.mem_cons_self

end Weighing

end Sys2Proof.Machine
end

section
/-! PROOFS. Captures, rejects and evaluations of the session, and O50 from them. -/

namespace Sys2Proof.Machine

open Sys2Proof

section Outcomes

variable {s x : Block} {st o : Station} {cy k : Cycle} {i j : Fin 48} {r w : Record} {u : Session} {n : Nat} {v : Int}

/-! ### Rejects (R142) -/

/-- A record whose attempt is refused. -/
def refusedRecord (r : Record) : Record :=
  { r with charge := r.charge.map fun p => { p with status := .rejected, weight := 0 } }

/-- The notice that tells what an attempt came to. -/
def told (u : Session) (m : Notice) (cause : WeighCause) (s : Block) : Block :=
  postWeigh { station := u.owner, notice := m, attempt := u.attempts, cause := cause, weight := filteredNet s } s

theorem told_frame (m : Notice) (cause : WeighCause) :
    told u m cause s = { s with rpu := { s.rpu with controlQ := (told u m cause s).rpu.controlQ } } := by
  unfold told
  rw [postWeigh_eq]

theorem notify_told (m : Notice) (cause : WeighCause) (f : Scu → Scu) :
    notify u m u.attempts cause (filteredNet s) (modScu f s) = { told u m cause s with scu := f s.scu } := by
  unfold notify told
  rw [postWeigh_eq, postWeigh_eq] <;> rfl

/-- An attempt refused, the session in REJECTED. -/
def refusedAttempt (u : Session) (i : Fin 48) (r : Record) (cause : WeighCause) (s : Block) : Block :=
  { writes i (refusedRecord r) (told u .rejected cause s) with
    scu := { s.scu with session := some { u with state := .rejected }, dwell := none, loading := none }
    cdu := { s.cdu with latched := s.cdu.latched ||| (1#23 <<< 12) } }

/-- What a session's end leaves of a block, whatever its session was. -/
theorem rejectAttempt_cases (hs : s.scu.session = some u) (hc : (stcOf s u.owner).cycle = some cy)
    (ho : openIn s i cy.record r) (cause : WeighCause) :
    (u.attempts < u.maxAttempts →
      rejectAttempt u cause (filteredNet s) s = (refusedAttempt u i r cause s, .retry)) ∧
    (u.maxAttempts ≤ u.attempts → rejectAttempt u cause (filteredNet s) s =
      (grantOldest { refusedAttempt u i r cause s with scu := sessionless s.scu }, .finalReject u.owner)) := by
  have part : modOpenRecord u.owner (withChargeStatus .rejected 0)
      { told u .rejected cause s with scu := { s.scu with dwell := none, loading := none } } =
      writes i (refusedRecord r)
        { told u .rejected cause s with scu := { s.scu with dwell := none, loading := none } } := by
    refine modOpenRecord_writes (cy := cy) ?_ (openIn_congr ho ?_) _
    · rw [told_frame]
      exact hc
    · rw [told_frame]
  have cdu : (told u .rejected cause s).cdu = s.cdu := by rw [told_frame]
  unfold rejectAttempt
  dsimp only
  rw [notify_told, part]
  refine ⟨fun h => ?_, fun h => ?_⟩
  · rw [if_neg (Nat.not_le.mpr h)]
    refine congrArg (fun b => (b, Outcome.retry)) ?_
    unfold modSession modScu latchCond latch refusedAttempt
    dsimp only [writes]
    rw [hs, cdu]
    rfl
  · rw [if_pos h]
    refine congrArg (fun b => (grantOldest b, Outcome.finalReject u.owner)) ?_
    unfold endSession modScu latchCond latch refusedAttempt
    dsimp only [writes]
    rw [cdu]
    rfl

/-- The last reject of a session: the oldest claim granted, and the cycle closed as ABORTED. -/
theorem finalReject_closes (hs : (stcOf s u.owner).state = .charging) (hc : (stcOf s u.owner).cycle = some cy)
    (ho : openIn s i cy.record r) (hq : u.owner ∉ s.scu.claims)
    (hk : ∀ o k, o ∈ s.scu.claims → (stcOf s o).cycle = some k → k.record ≠ cy.record) (cause : WeighCause) :
    let y : Block := { refusedAttempt u i r cause s with scu := sessionless s.scu }
    finalReject u.owner (grantOldest y) =
      cycleOpenTest u.owner (cycleClosed u.owner cy i ((refusedRecord r).aborted false) (grantOldest y)) := by
  intro y
  have hstc : y.stc = s.stc := by
    show (told u .rejected cause s).stc = s.stc
    rw [told_frame]
  have slots : (told u .rejected cause s).hst.slots = s.hst.slots := by rw [told_frame]
  have hoy : openIn y i cy.record (refusedRecord r) :=
    openIn_congr (openIn_writes (s := told u .rejected cause s) (x := refusedRecord r) (openIn_congr ho slots) rfl) rfl
  have stcy (z : Station) : stcOf y z = stcOf s z := by unfold stcOf; rw [hstc]
  obtain ⟨hclaims, howner, r', hor, hr⟩ := grantOldest_keeps (s := y) rfl hoy
  have same : r' = refusedRecord r := hr fun o k hmem hcy => hk o k hmem (by rw [← stcy]; exact hcy)
  rw [same] at hor
  have only : ScaleOnly y (grantOldest y) := scaleOnly_grantOldest y
  have hstg : stcOf (grantOldest y) u.owner = stcOf s u.owner := by rw [only.stcOf, stcy]
  have unwaiting : unclaimed u.owner (grantOldest y).scu = (grantOldest y).scu := by
    have all : (grantOldest y).scu.claims.filter (fun z => decide (z ≠ u.owner)) = (grantOldest y).scu.claims := by
      rw [List.filter_eq_self]
      intro z hz
      exact decide_eq_true fun h => hq (h ▸ hclaims z hz)
    unfold unclaimed
    rw [all]
  have close := endFromCharging_unclaimed (s := grantOldest y) (st := u.owner) (by rw [hstg]; exact hc) hor
    fun a ha h => hq (h ▸ howner a ha)
  rw [unwaiting] at close
  exact (if_pos (by unfold stateOf; rw [hstg]; exact hs)).trans close

/-! ### Accepts (R141) -/

/-- A record whose charge is accepted. -/
def acceptedRecord (w : Int) (time : Option Stamp) (r : Record) : Record := { r with
  charge := r.charge.map fun p => { p with status := .accepted, weight := w }
  weighedAt := match time with
    | some x => some x
    | none => r.weighedAt }

theorem withAccepted_eq (w : Int) (time : Option Stamp) : withAccepted w time r = acceptedRecord w time r := by
  cases time <;> rfl

/-- A station in PRESS_LOAD on the charge just accepted. -/
def acceptedLoad (u : Session) (cy : Cycle) (i : Fin 48) (r : Record) (s : Block) : Block :=
  { modStc u.owner (fun c => { c with
      state := .pressLoad, closeOk := c.heatReady, cycle := some { cy with waitRunning := true, chargeWait := 0 } })
      (writes i (acceptedRecord (filteredNet s) s.hst.lineTime r) (told u .accepted .none s)) with
    scu := { s.scu with
      session := some { u with state := .accepted }, dwell := none, loading := none
      accepted := s.scu.accepted.set u.owner (some { weight := filteredNet s, attempts := u.attempts }) } }

theorem acceptCharge_acceptedLoad (hs : s.scu.session = some u) (hst : (stcOf s u.owner).state = .charging)
    (hc : (stcOf s u.owner).cycle = some cy) (ho : openIn s i cy.record r) :
    acceptCharge u.owner (acceptAttempt u (filteredNet s) s) = cureTest u.owner (acceptedLoad u cy i r s) := by
  have hstc : (told u .accepted .none s).stc = s.stc := by rw [told_frame]
  have slots : (told u .accepted .none s).hst = s.hst := by rw [told_frame]
  have part : modOpenRecord u.owner (withAccepted (filteredNet s) (told u .accepted .none s).hst.lineTime)
      { told u .accepted .none s with scu := { s.scu with dwell := none, loading := none } } =
      writes i (acceptedRecord (filteredNet s) s.hst.lineTime r)
        { told u .accepted .none s with scu := { s.scu with dwell := none, loading := none } } := by
    rw [modOpenRecord_writes (cy := cy) ?_ (openIn_congr ho ?_), withAccepted_eq, slots]
    · unfold stcOf
      rw [hstc]
      exact hc
    · rw [slots]
  let z : Block := { writes i (acceptedRecord (filteredNet s) s.hst.lineTime r) (told u .accepted .none s) with
    scu := { s.scu with
      session := some { u with state := .accepted }, dwell := none, loading := none
      accepted := s.scu.accepted.set u.owner (some { weight := filteredNet s, attempts := u.attempts }) } }
  have attempt : acceptAttempt u (filteredNet s) s = z := by
    unfold acceptAttempt
    dsimp only
    rw [notify_told, part]
    unfold modSession modScu
    dsimp only [writes]
    rw [hs]
    rfl
  have hz : stcOf z u.owner = stcOf s u.owner := by
    show stcOf (told u .accepted .none s) u.owner = _
    unfold stcOf
    rw [hstc]
  rw [attempt]
  refine (if_pos (by unfold stateOf; rw [hz]; exact hst)).trans (congrArg (cureTest u.owner) ?_)
  have loaded := stcOf_modStc_self z u.owner fun c => { c with state := .pressLoad, closeOk := c.heatReady }
  rw [modCycle_eq (cy := cy) (by rw [loaded, hz]; exact hc), modStc_modStc]
  rfl

theorem stcOf_acceptedLoad : stcOf (acceptedLoad u cy i r s) u.owner = { stcOf s u.owner with
    state := .pressLoad, closeOk := (stcOf s u.owner).heatReady
    cycle := some { cy with waitRunning := true, chargeWait := 0 } } := by
  let y : Block := writes i (acceptedRecord (filteredNet s) s.hst.lineTime r) (told u .accepted .none s)
  have hy : stcOf y u.owner = stcOf s u.owner := by
    show stcOf (told u .accepted .none s) u.owner = _
    rw [told_frame]
    rfl
  rw [← hy]
  exact stcOf_modStc_self y u.owner fun c => { c with
    state := .pressLoad, closeOk := c.heatReady, cycle := some { cy with waitRunning := true, chargeWait := 0 } }

theorem openIn_acceptedLoad (ho : openIn s i n r) :
    openIn (acceptedLoad u cy i r s) i n (acceptedRecord (filteredNet s) s.hst.lineTime r) := by
  have slots : (told u .accepted .none s).hst.slots = s.hst.slots := by rw [told_frame]
  exact openIn_congr (openIn_writes (s := told u .accepted .none s)
    (x := acceptedRecord (filteredNet s) s.hst.lineTime r) (openIn_congr ho slots) rfl) rfl

/-- A TONNAGE reading in PRESS_LOAD, the session accepted, is the test of R72. -/
theorem tonnageReading_accepted (hs : (stcOf s st).state = .pressLoad) (hc : (stcOf s st).cycle = some cy)
    (ho : openIn s i cy.record r) (hu : s.scu.session = some u) (hown : u.owner = st) (ha : u.state = .accepted) :
    tonnageReading st v s = cureTest st s := by
  have notCuring : ¬ (stcOf s st).state = .curing := by rw [hs]; decide
  unfold tonnageReading
  rw [if_neg (show ¬ stateOf s st = .curing from notCuring)]
  by_cases hf : (closedFresh s st && tonnageFresh s st cy.recipe.minTonnage) = true
  · let y : Block := { s with scu := sessionless s.scu }
    obtain ⟨-, -, r', hor, -⟩ := grantOldest_keeps (s := y) (i := i) (n := cy.record) (r := r) rfl (openIn_congr ho rfl)
    have only : ScaleOnly y (grantOldest y) := scaleOnly_grantOldest y
    have hcg : (stcOf (grantOldest y) st).cycle = some cy := by rw [only.stcOf]; exact hc
    rw [cureTest_enters hs hc hf, enterCuring_entered (leaveScale_accepted hu hown ha) hcg hor only.tab]
    exact judgeGate_curingEntered hor rfl
  · rw [cureTest_idle (.inr ⟨cy, hc, by simpa using hf⟩), judgeGate_idle notCuring]

/-! ### The session's evaluation (R136, R138, R139, R143) -/

theorem evalSession_none (h : x.scu.session = none) : evalSession x = x := by
  unfold evalSession
  rw [h]

theorem evalSession_clearing (h : x.scu.session = some u) (hu : u.state = .clearing) :
    evalSession x = evalClearing x := by
  unfold evalSession
  rw [h]
  dsimp only
  rw [hu]

theorem evalSession_loading (h : x.scu.session = some u) (hu : u.state = .loading) : evalSession x = evalLoading x := by
  unfold evalSession
  rw [h]
  dsimp only
  rw [hu]

theorem evalSession_settling (h : x.scu.session = some u) (hu : u.state = .settling) :
    evalSession x = evalSettling x := by
  unfold evalSession
  rw [h]
  dsimp only
  rw [hu]

theorem evalSession_accepted (h : x.scu.session = some u) (hu : u.state = .accepted) :
    evalSession x = if scaleEmpty x = true then grantOldest (endSession x) else x := by
  unfold evalSession
  rw [h]
  dsimp only
  rw [hu]

theorem evalSession_rejected (h : x.scu.session = some u) (hu : u.state = .rejected) :
    evalSession x = if scaleEmpty x = true then enterLoading x else x := by
  unfold evalSession
  rw [h]
  dsimp only
  rw [hu]

theorem evalClearing_waits (h : x.scu.session = some u) (he : scaleEmpty x = false) : evalClearing x =
    if x.scu.stable = true ∧ u.clearSent = false then
      { postWeigh { station := u.owner, notice := .clearScale, attempt := 0, cause := .none, weight := filteredNet x } x with
        scu := { x.scu with session := some { u with clearSent := true } } }
    else x := by
  unfold evalClearing
  rw [h]
  dsimp only
  rw [if_neg (by rw [he]; decide)]
  refine if_congr (by simp) ?_ rfl
  unfold modSession modScu notify
  rw [postWeigh_eq]
  dsimp only
  rw [h] <;> rfl

theorem evalClearing_begins (h : x.scu.session = some u) (he : scaleEmpty x = true) : evalClearing x = enterLoading x := by
  unfold evalClearing
  rw [h]
  exact if_pos he

theorem evalSettling_eq : evalSettling x = if x.scu.stable = true ∧ x.scu.overload = false then capture x else x :=
  if_congr (by simp) rfl rfl

/-- The window cleared. -/
def emptied (s : Block) : Block := { s with scu := { s.scu with window := [], stable := false, dwell := none } }

theorem filteredNet_emptied : filteredNet (emptied s) = 0 := by
  have pos : ¬ 2 ^ s.tab.line.windowCode ≤ 0 := Nat.not_le.mpr (Nat.two_pow_pos _)
  rw [filteredNet_eq]
  exact if_neg pos

theorem clearWindow_idle (h : ∀ u, s.scu.session = some u → u.state ≠ .loading) : clearWindow s = emptied s := by
  show evalIfLoading (emptied s) = emptied s
  unfold evalIfLoading
  have same : (emptied s).scu.session = s.scu.session := rfl
  rw [same]
  cases hs : s.scu.session with
  | none => rfl
  | some u => exact if_neg (h u hs)

theorem clearWindow_loading (hs : s.scu.session = some u) (h : u.state = .loading) :
    clearWindow s = evaluated u (emptied s) := by
  show evalIfLoading (emptied s) = _
  unfold evalIfLoading
  have same : (emptied s).scu.session = some u := hs
  rw [same]
  exact (if_pos h).trans (evalLoading_evaluated same)

/-! ### A reading of the scale (R125) -/

theorem weighed_scu : (weighed v s).scu.session = s.scu.session ∧ (weighed v s).scu.claims = s.scu.claims ∧
    (weighed v s).tab = s.tab ∧ (weighed v s).stc = s.stc ∧ (weighed v s).hst = s.hst := by
  unfold weighed
  dsimp only
  rw [setLevel_spec]
  exact ⟨rfl, rfl, rfl, rfl, rfl⟩

/-- The filtered net weight after a reading: the mean of the window, or the newest entry. -/
theorem filteredNet_weighed :
    let l := s.tab.line
    let gross : Int := ((v - l.zero) * l.span + 32768) / 65536
    let held := (weighed v s).scu.window
    filteredNet (weighed v s) = if 2 ^ l.windowCode ≤ held.length then
      ((held.map (·.net)).sum + (2 ^ l.windowCode / 2 : Nat)) / ((2 ^ l.windowCode : Nat) : Int) else gross - s.scu.tare := by
  intro l gross held
  have newest : ((held.map (·.net)).getLast?).getD 0 = gross - s.scu.tare := by
    show ((((if 2 ^ l.windowCode ≤ s.scu.window.length then s.scu.window.tail else s.scu.window) ++
      [({ raw := v, net := gross - s.scu.tare } : Reading)]).map (·.net)).getLast?).getD 0 = _
    rw [List.map_append, List.map_singleton, List.getLast?_append, List.getLast?_singleton]
    rfl
  rw [filteredNet_eq, newest, weighed_scu.2.2.1]

theorem scaleReading_eq : scaleReading v s = evalSession (weighed v s) := congrArg evalSession takeReading_weighed

end Outcomes

/-- Settles O50: the timers, readings by the session's state, cleared windows, captures and rejects. -/
theorem scaleTimers : Obligations.ScaleTimers := by
  intro s b cleared
  refine ⟨fun h => finish_stopped h, fun h => finish_stopped h, fun h => finish_running h rfl,
    fun h => finish_running h rfl, fun h => ⟨?_, ?_⟩, fun v edge => ?_, filteredNet_emptied, clearWindow_idle,
    fun u hs h => clearWindow_loading hs h, fun u cy i r hs hc ho => ?_⟩
  · unfold capture
    rw [show b.scu.session = none from h]
  · unfold loadingTimeout
    rw [show b.scu.session = none from h]
  · intro l gross excess n held nets band stable t net empty reads
    have ht : t = weighed v b := rfl
    obtain ⟨hsession, hclaims, htab, hstc, hhst⟩ := weighed_scu (v := v) (s := b)
    have hnet : filteredNet t = net := filteredNet_weighed (v := v) (s := b)
    have hempty : scaleEmpty t = empty := by
      unfold scaleEmpty
      rw [hnet, ht, htab]
      rfl
    have read {x : Block} (h : evalSession t = x) : reads x := (scaleReading_eq (v := v) (s := b)).trans h
    refine ⟨hnet, fun hs => ⟨read (evalSession_none (hsession.trans hs)), ?_⟩, fun u hs => ?_⟩
    · show (if edge = .rising then scaleDone b else b) = b
      have idle : scaleDone b = b := by
        unfold scaleDone
        rw [hs]
      rw [idle, ite_self]
    · intro settled
      have hst : t.scu.session = some u := hsession.trans hs
      have notEmpty (he : empty = false) : ¬ scaleEmpty t = true := by rw [hempty, he]; exact Bool.false_ne_true
      refine ⟨fun h => ?_, fun h => ?_, fun h he => read ?_, fun h => read ?_, fun h => read ?_, fun h he => read ?_,
        fun cy i w hc hw h he => read ?_, fun h he => ⟨fun hq => read ?_, fun st rest cy i w hq hc hw => read ?_⟩⟩
      · show (if edge = .rising then scaleDone b else b) = b
        split
        · next hr =>
          unfold scaleDone
          rw [hs]
          exact if_neg (h.resolve_left (not_not_intro hr))
        · rfl
      · show scaleDone b = _
        have hsettled : modScu (fun v => { v with dwell := none })
            (modSession (fun v => { v with state := .settling }) b) = settled := by
          unfold modScu modSession
          dsimp only [modScu]
          rw [hs]
          rfl
        unfold scaleDone
        rw [hs]
        refine (if_pos h).trans ?_
        rw [hsettled]
        exact evalSettling_eq
      · refine (evalSession_clearing hst h).trans ((evalClearing_waits hst (hempty.trans he)).trans ?_)
        rw [hnet]
      · exact (evalSession_loading hst h).trans (evalLoading_evaluated hst)
      · exact (evalSession_settling hst h).trans evalSettling_eq
      · rcases h with h | h
        · exact (evalSession_accepted hst h).trans (if_neg (notEmpty he))
        · exact (evalSession_rejected hst h).trans (if_neg (notEmpty he))
      · have hct : (stcOf t u.owner).cycle = some cy := by
          unfold stcOf
          rw [ht, hstc]
          exact hc
        have begins : enterLoading t = attemptBegun u i w t :=
          enterLoading_attemptBegun hst hct (openIn_congr hw (by rw [ht, hhst]))
        rcases h with h | h
        · exact (evalSession_clearing hst h).trans ((evalClearing_begins hst (hempty.trans he)).trans begins)
        · exact (evalSession_rejected hst h).trans ((if_pos (hempty.trans he)).trans begins)
      · refine (evalSession_accepted hst h).trans ?_
        exact (if_pos (hempty.trans he)).trans (grantOldest_idle (s := endSession t) (.inr (hclaims.trans hq)))
      · refine (evalSession_accepted hst h).trans ((if_pos (hempty.trans he)).trans ?_)
        refine grantOldest_granted (s := endSession t) rfl (hclaims.trans hq) ?_ (openIn_congr hw ?_)
        · show (t.stc.get st).cycle = some cy
          rw [ht, hstc]
          exact hc
        · show t.hst.slots = b.hst.slots
          rw [ht, hhst]
  · intro st c w told' refused again final ends
    have rejects {x : Block} {cause : WeighCause} (hx : x = deliverOutcome (rejectAttempt u cause w b)) : ends x cause := by
      obtain ⟨hretry, hfinal⟩ := rejectAttempt_cases hs hc ho cause
      refine ⟨fun h => ?_, fun h hst hq hk => ?_⟩
      · rw [hx, hretry h]
        rfl
      · rw [hx, hfinal h]
        exact finalReject_closes hst hc ho hq hk cause
    have captures : capture b = deliverOutcome (captureAttempt u b) := by
      unfold capture
      rw [hs]
    refine ⟨rejects ?_, fun h => rejects ?_, fun h h' => rejects ?_, fun h h' hst v edge => ?_⟩
    · unfold loadingTimeout
      rw [hs]
      rfl
    · exact captures.trans (congrArg deliverOutcome (if_pos h))
    · exact captures.trans (congrArg deliverOutcome ((if_neg (not_lt.mpr h)).trans (if_pos h')))
    · intro weighed'
      have accepts : captureAttempt u b = (acceptAttempt u w b, .accepted u.owner) :=
        (if_neg (not_lt.mpr h)).trans (if_neg (not_lt.mpr h'))
      have hload : stcOf (acceptedLoad u cy i r b) st = { stcOf b st with
          state := .pressLoad, closeOk := (stcOf b st).heatReady
          cycle := some { cy with waitRunning := true, chargeWait := 0 } } :=
        stcOf_acceptedLoad
      have hopen : openIn (acceptedLoad u cy i r b) i cy.record weighed' := openIn_acceptedLoad ho
      have reading := tonnageReading_accepted (v := v) (cy := { cy with waitRunning := true, chargeWait := 0 })
        (u := { u with state := .accepted }) (by rw [hload]) (by rw [hload]) hopen rfl rfl rfl
      rw [captures, accepts]
      exact (acceptCharge_acceptedLoad hs hst hc ho).trans reading.symm

end Sys2Proof.Machine
end

section
/-! PROOFS. The budget event (R110 to R118): allowances within the capacity, clipped grants, and the deferred wakes that
a clearing of the pressure lets go. -/

namespace Sys2Proof.Machine

open Sys2Proof

/-! ### Allowances within the capacity (R112, R113) -/

/-- The allowances of a class and what it leaves never exceed what it found. -/
theorem class_within (l : List (Fin 32)) (d p : Fin 32 → Nat) (remaining : Nat) :
    let load := (l.map fun z => d z * p z).sum
    (l.map fun z => d z * factorOf load remaining / 1024 * p z).sum + remainingAfter load remaining ≤ remaining := by
  intro load
  unfold factorOf remainingAfter
  by_cases h : load ≤ remaining
  · have whole : (fun z => d z * 1024 / 1024 * p z) = fun z => d z * p z := by
      funext z
      rw [Nat.mul_div_cancel _ (by decide)]
    simp only [if_pos h, whole]
    exact (Nat.add_sub_cancel' h).le
  · simp only [if_neg h, Nat.add_zero]
    have scaled (F : Nat) (l : List (Fin 32)) :
        (l.map fun z => d z * F / 1024 * p z).sum * 1024 ≤ F * (l.map fun z => d z * p z).sum := by
      induction l with
      | nil => simp
      | cons z l ih =>
        have one : d z * F / 1024 * p z * 1024 ≤ F * (d z * p z) := calc
          d z * F / 1024 * p z * 1024 = d z * F / 1024 * 1024 * p z := by ring
          _ ≤ d z * F * p z := Nat.mul_le_mul_right _ (Nat.div_mul_le_self _ _)
          _ = F * (d z * p z) := by ring
        simp only [List.map_cons, List.sum_cons, add_mul, mul_add]
        exact Nat.add_le_add one ih
    have bound : remaining * 1024 / load * load ≤ remaining * 1024 := Nat.div_mul_le_self _ _
    exact Nat.le_of_mul_le_mul_right ((scaled (remaining * 1024 / load) l).trans bound) (by decide)

/-- A sum over zones is the sum over the classes, where a zone without a class adds nothing. -/
theorem sum_by_class (k : Fin 32 → Option BudgetClass) (f : Fin 32 → Nat) (hf : ∀ z, k z = none → f z = 0)
    (l : List (Fin 32)) : (l.map f).sum =
      ((l.filter fun z => decide (k z = some .curing)).map f).sum +
      ((l.filter fun z => decide (k z = some .heating)).map f).sum +
      ((l.filter fun z => decide (k z = some .standby)).map f).sum := by
  induction l with
  | nil => rfl
  | cons z l ih =>
    rw [List.map_cons, List.sum_cons, ih]
    cases hk : k z with
    | none => simp [hk, hf z hk]
    | some c => cases c <;> simp [hk] <;> omega

theorem allowanceFor_of_class {s : Block} {f : ByClass} {z : Fin 32} {c : BudgetClass} (h : zoneClass s z = some c) :
    allowanceFor s f z = demandOf s z * f.get c / 1024 := by
  rw [allowanceFor, h]

theorem allowanceFor_of_none {s : Block} {f : ByClass} {z : Fin 32} (h : zoneClass s z = none) :
    allowanceFor s f z = 0 := by
  rw [allowanceFor, h]

/-- The allowances never add up to more than the capacity (R113). -/
theorem allowanceLoad_le (s : Block) : (allocate s).pwa.allowanceLoad ≤ capacityOf s := by
  let f := factorsOf (loadsOf s) (capacityOf s)
  let members (c : BudgetClass) := allZones.filter fun z => decide (zoneClass s z = some c)
  let spent (c : BudgetClass) := ((members c).map fun z => demandOf s z * f.get c / 1024 * (entryOf s z).ratedPower).sum
  let left := remainingAfter (loadsOf s).c0 (capacityOf s)
  have ofClass (c : BudgetClass) :
      ((members c).map fun z => allowanceFor s f z * (entryOf s z).ratedPower).sum = spent c := by
    refine congrArg List.sum (List.map_congr_left fun z hz => ?_)
    rw [allowanceFor_of_class (of_decide_eq_true (List.mem_filter.mp hz).2)]
  have total : (allocate s).pwa.allowanceLoad = spent .curing + spent .heating + spent .standby := by
    rw [← ofClass, ← ofClass, ← ofClass]
    exact sum_by_class (zoneClass s) (fun z => allowanceFor s f z * (entryOf s z).ratedPower)
      (fun z hz => by rw [allowanceFor_of_none hz, Nat.zero_mul]) allZones
  have curing : spent .curing + left ≤ capacityOf s := class_within (members .curing) _ _ _
  have heating : spent .heating + remainingAfter (loadsOf s).c1 left ≤ left := class_within (members .heating) _ _ _
  have standby : spent .standby + _ ≤ remainingAfter (loadsOf s).c1 left := class_within (members .standby) _ _ _
  omega

/-! ### Grants clipped to the allowances (R114, R116) -/

/-- A grant above the allowance is clipped. -/
def clipped (s : Block) (z : Fin 32) : Bool := decide (allowanceOf s z < (zoneOf s z).g)

theorem clipZone_eq (z : Fin 32) (s : Block) : clipZone z s =
    { s with
      zrg := { s.zrg with zones := vset s.zrg.zones z { zoneOf s z with g := min (zoneOf s z).g (allowanceOf s z) } }
      rpu := { s.rpu with
        controlQ := if clipped s z = true then withDuty s z (allowanceOf s z) else s.rpu.controlQ } } := by
  unfold clipZone clipped
  by_cases h : allowanceOf s z < (zoneOf s z).g
  · rw [if_pos h, if_pos (decide_eq_true h), postDuty_eq, zoneOf_modZone_self, Nat.min_eq_right h.le]
    rfl
  · rw [if_neg h, if_neg (by simpa using h), Nat.min_eq_left (Nat.le_of_not_lt h)]
    exact congrArg (fun v => { s with zrg := { s.zrg with zones := v } }) (vset_vget s.zrg.zones z).symm

/-- The zones of a list are clipped one after another. -/
theorem clipZone_foldl (l : List (Fin 32)) (hl : l.Nodup) (s : Block) :
    let b := l.foldl (fun s z => clipZone z s) s
    (∀ z, zoneOf b z =
      if z ∈ l then { zoneOf s z with g := min (zoneOf s z).g (allowanceOf s z) } else zoneOf s z) ∧
    b = { s with
      zrg := { s.zrg with zones := b.zrg.zones }
      rpu := { s.rpu with
        controlQ := if s.rpu.outPort.link = .up then
            (l.filter (clipped s)).foldl (fun q z =>
              putDrive (enabledNodes s) (entryOf s z).driveNode (entryOf s z).driveChannel (allowanceOf s z) q)
              s.rpu.controlQ
          else s.rpu.controlQ } } := by
  induction l generalizing s with
  | nil => exact ⟨fun z => rfl, by simp⟩
  | cons a l ih =>
    obtain ⟨hnot, hl⟩ := List.nodup_cons.mp hl
    have hy := clipZone_eq a s
    obtain ⟨bz, bb⟩ := ih hl (clipZone a s)
    intro b
    have hb : b = l.foldl (fun s z => clipZone z s) (clipZone a s) := rfl
    rw [← hb] at bz bb
    clear_value b
    generalize clipZone a s = y at hy bz bb
    have hyz (w : Fin 32) : zoneOf y w =
        if a = w then { zoneOf s a with g := min (zoneOf s a).g (allowanceOf s a) } else zoneOf s w := by
      rw [hy]
      exact vget_vset _ _ _ _
    have hya : allowanceOf y = allowanceOf s := by rw [hy]; rfl
    refine ⟨fun w => ?_, ?_⟩
    · rw [bz, hyz, hya]
      by_cases haw : a = w
      · subst haw
        simp [hnot]
      · simp [haw, Ne.symm haw]
    · have still : l.filter (clipped y) = l.filter (clipped s) := List.filter_congr fun w hw => by
        have hne : a ≠ w := fun h => hnot (h ▸ hw)
        rw [clipped, hyz, if_neg hne, hya, clipped]
      rw [still, hya] at bb
      refine bb.trans ?_
      rw [hy]
      dsimp only
      unfold withDuty
      by_cases hup : s.rpu.outPort.link = .up <;> by_cases hc : clipped s a = true <;> simp [hup, hc] <;> rfl

/-! ### The deferred wakes (R63) -/

/-- A station that acts on the clearing of the pressure. -/
def heats (s : Block) (st : Station) : Prop :=
  ((stcOf s st).state = .off ∨ (stcOf s st).state = .standby) ∧ (stcOf s st).bound ≠ none ∧ zonesOf s st ≠ []

/-- What a budget event makes of a station, with `wakes` saying that it lets a deferred wake of the station go: before any
target moves. -/
structure Woken (wakes : Prop) (s : Block) (st : Station) (x : Block) : Prop where
  idle : ¬ wakes → stcOf x st = stcOf s st
  dropped : wakes → ¬ heats s st → stcOf x st = { stcOf s st with deferredWake := false }
  heated : ∀ i, wakes → heats s st → (stcOf s st).bound = some i → stcOf x st = { stcOf s st with
    deferredWake := false, state := .preheat, heatReady := false
    settle := if allInBand s st = true then some { elapsed := 0, length := (vget s.tab.recipes i).settle * 1000 }
      else none }
  zonesHeated : wakes → heats s st → ∀ z, (entryOf s z).station = st → zoneOf x z = leftOff s st z
  zonesKept : ¬ (wakes ∧ heats s st) → ∀ z, (entryOf s z).station = st → zoneOf x z = zoneOf s z

theorem leftOff_congr {s x : Block} {st : Station} (htab : x.tab = s.tab)
    (hstate : (stcOf x st).state = (stcOf s st).state) {z : Fin 32} (hz : zoneOf x z = zoneOf s z) :
    leftOff x st z = leftOff s st z := by
  unfold leftOff slotFresh slotHeld
  simp only [hstate, zonesOf_congr st htab, hz, isFresh_congr htab, heldOf_congr htab]

theorem leftOff_elsewhere {s : Block} {st : Station} {z : Fin 32} (h : (entryOf s z).station ≠ st) :
    leftOff s st z = zoneOf s z :=
  if_neg fun hz => h ((mem_zonesOf s st z).mp hz.2.1).2

theorem takeDeferred_woken {s : Block} {st : Station} (hy : (stcOf s st).deferredWake = true → (stcOf s st).cycle = none) :
    let x := takeDeferred st s
    Woken ((stcOf s st).deferredWake = true) s st x ∧ stcOf x (otherStation st) = stcOf s (otherStation st) ∧
    (∀ z, (entryOf s z).station ≠ st → zoneOf x z = zoneOf s z) ∧
    x = { s with stc := x.stc, zrg := { s.zrg with zones := x.zrg.zones } } := by
  cases hd : (stcOf s st).deferredWake with
  | false =>
    have same : takeDeferred st s = s := by
      unfold takeDeferred
      dsimp only
      rw [hd]
      rfl
    rw [same]
    exact ⟨⟨fun _ => rfl, fun h => (nomatch h), fun _ h => (nomatch h), fun h => (nomatch h), fun _ _ _ => rfl⟩, rfl,
      fun _ _ => rfl, rfl⟩
  | true =>
    let w := modStc st (fun c => { c with deferredWake := false }) s
    have hw : stcOf w st = { stcOf s st with deferredWake := false } :=
      stcOf_modStc_self s st fun c => { c with deferredWake := false }
    have hwo : stcOf w (otherStation st) = stcOf s (otherStation st) := stcOf_modStc_other s st _
    have hwz (z : Fin 32) : zoneOf w z = zoneOf s z := rfl
    have may : ((stcOf s st).state = .off ∨ (stcOf s st).state = .standby) ∧ (stcOf s st).bound.isSome = true ∧
        zonesOf s st ≠ [] ↔ heats s st := by
      rw [heats, Option.isSome_iff_ne_none]
    have acts : takeDeferred st s = if ((stcOf s st).state = .off ∨ (stcOf s st).state = .standby) ∧
        (stcOf s st).bound.isSome = true ∧ zonesOf s st ≠ [] then enterHeat st w else w := by
      unfold takeDeferred
      dsimp only
      rw [hd]
      rfl
    by_cases hh : heats s st
    · rw [acts, if_pos (may.mpr hh)]
      obtain ⟨i, hi⟩ := Option.ne_none_iff_exists'.mp hh.2.1
      obtain ⟨hst, ho, hz, hx⟩ := enterHeat_spec (s := w) (st := st) (i := i) (by rw [hw]; exact hi)
        (by rw [hw]; exact hy hd)
      have band : allInBand w st = allInBand s st := allInBand_congr st rfl (by rw [hw])
      have zones (z : Fin 32) : zoneOf (enterHeat st w) z = leftOff s st z :=
        (hz z).trans (leftOff_congr (s := s) (x := w) rfl (hw ▸ rfl) (hwz z))
      refine ⟨⟨fun h => absurd rfl h, fun _ h => absurd hh h, fun j _ _ hj => ?_, fun _ _ z _ => zones z,
        fun h => absurd ⟨rfl, hh⟩ h⟩, ho.trans hwo, fun z hne => (zones z).trans (leftOff_elsewhere hne), ?_⟩
      · rw [hi] at hj
        cases hj
        rw [hst, hw, band]
        rfl
      · rw [hx]
        rfl
    · rw [acts, if_neg (mt may.mp hh)]
      exact ⟨⟨fun h => absurd rfl h, fun _ _ => hw, fun _ _ h => absurd h hh, fun _ h => absurd h hh,
        fun _ z _ => hwz z⟩, hwo, fun _ _ => rfl, rfl⟩

/-- What a budget event makes of a station depends on that station and its zones only. -/
theorem Woken.congr {p : Prop} {s y v w : Block} {st : Station} (h : Woken p y st w) (htab : y.tab = s.tab)
    (hst : stcOf y st = stcOf s st) (hz : ∀ z, (entryOf s z).station = st → zoneOf y z = zoneOf s z)
    (hv : stcOf v st = stcOf w st) (hvz : ∀ z, (entryOf s z).station = st → zoneOf v z = zoneOf w z) :
    Woken p s st v := by
  have hheats : heats y st = heats s st := by rw [heats, hst, zonesOf_congr st htab, heats]
  have band : allInBand y st = allInBand s st := allInBand_congr st htab (by rw [hst])
  have entries (z : Fin 32) : entryOf y z = entryOf s z := by rw [entryOf, htab, entryOf]
  obtain ⟨h1, h2, h3, h4, h5⟩ := h
  simp only [hst, hheats, band, htab, entries] at h1 h2 h3 h4 h5
  refine ⟨fun hp => hv.trans (h1 hp), fun hp hh => hv.trans (h2 hp hh), fun i hp hh hi => hv.trans (h3 i hp hh hi),
    fun hp hh z hs => (hvz z hs).trans ((h4 hp hh z hs).trans (leftOff_congr htab (by rw [hst]) (hz z hs))),
    fun hp z hs => (hvz z hs).trans ((h5 hp z hs).trans (hz z hs))⟩

/-- Both stations act on the clearing of the pressure. -/
theorem takeBoth_woken {s : Block} (hy : ∀ st, (stcOf s st).deferredWake = true → (stcOf s st).cycle = none) :
    let x := takeDeferred .b (takeDeferred .a s)
    (∀ st, Woken ((stcOf s st).deferredWake = true) s st x) ∧
    x = { s with stc := x.stc, zrg := { s.zrg with zones := x.zrg.zones } } := by
  obtain ⟨wa, oa, za, ba⟩ := takeDeferred_woken (hy .a)
  generalize takeDeferred .a s = y at wa oa za ba
  have htab : y.tab = s.tab := by rw [ba]
  have oa : stcOf y .b = stcOf s .b := oa
  obtain ⟨wb, ob, zb, bb⟩ := takeDeferred_woken (s := y) (st := .b) (by rw [oa]; exact hy .b)
  rw [oa] at wb
  have entries (z : Fin 32) : entryOf y z = entryOf s z := by rw [entryOf, htab, entryOf]
  have apart {z : Fin 32} {st : Station} (hz : (entryOf s z).station = otherStation st) : (entryOf s z).station ≠ st := by
    rw [hz]
    cases st <;> decide
  refine ⟨fun st => ?_, bb.trans (by rw [ba])⟩
  cases st with
  | a => exact wa.congr rfl rfl (fun _ _ => rfl) ob fun z hz => zb z (by rw [entries]; exact apart (st := .b) hz)
  | b => exact wb.congr htab oa (fun z hz => za z (apart (st := .a) hz)) rfl fun _ _ => rfl

/-- The pressure judgement, with the deferred wakes it lets go (R117, R118). -/
theorem judgePressure_spec {s : Block} (hy : ∀ st, (stcOf s st).deferredWake = true → (stcOf s st).cycle = none) :
    let x := judgePressure s
    (∀ st, Woken ((s.pwa.pressure = true ∧ pressureAfter s = false) ∧ (stcOf s st).deferredWake = true) s st x) ∧
    x = { s with
      stc := x.stc, zrg := { s.zrg with zones := x.zrg.zones }, pwa := { s.pwa with pressure := pressureAfter s }
      cdu := (setLevel .budgetPressure (pressureAfter s) s).cdu } := by
  let w := setLevel .budgetPressure (pressureAfter s) { s with pwa := { s.pwa with pressure := pressureAfter s } }
  have hw : w = { s with
      pwa := { s.pwa with pressure := pressureAfter s }, cdu := (setLevel .budgetPressure (pressureAfter s) s).cdu } := by
    unfold w
    rw [setLevel_spec, setLevel_spec]
  have acts : judgePressure s =
      if (s.pwa.pressure && !pressureAfter s) = true then takeDeferred .b (takeDeferred .a w) else w := rfl
  have hst (st : Station) : stcOf w st = stcOf s st := by rw [hw]; rfl
  have htab : w.tab = s.tab := by rw [hw]
  have hz (z : Fin 32) : zoneOf w z = zoneOf s z := by rw [hw]; rfl
  clear_value w
  obtain ⟨both, hx⟩ := takeBoth_woken (s := w) (by simpa only [hst] using hy)
  by_cases hc : s.pwa.pressure = true ∧ pressureAfter s = false
  · rw [acts, if_pos (by simp [hc])]
    refine ⟨fun st => ?_, hx.trans (by rw [hw])⟩
    have woken := both st
    rw [hst] at woken
    simp only [hc, and_self, true_and]
    exact woken.congr htab (hst st) (fun z _ => hz z) rfl fun _ _ => rfl
  · rw [acts, if_neg (by simpa using hc)]
    refine ⟨fun st => ?_, by rw [hw]⟩
    exact ⟨fun _ => hst st, fun h => absurd h.1 hc, fun _ h => absurd h.1 hc, fun h => absurd h.1 hc, fun _ z _ => hz z⟩

/-! ### Moves of both stations' targets in one event (R106) -/

/-- The event took the station into another state. -/
def moves (b x : Block) (st : Station) : Bool := decide ((stcOf x st).state ≠ (stcOf b st).state)

/-- What the close of an event makes of a station it has or has not taken into PREHEAT. -/
structure Moved (b x : Block) (st : Station) (y : Block) : Prop where
  kept : moves b x st = false → stcOf y st = stcOf x st
  stc : moves b x st = true → stcOf y st = { stcOf x st with
    inBand := (stcOf y st).inBand
    settle := if anyOut x st = true then none else (stcOf x st).settle
    heatReady := if anyOut x st = true then false else (stcOf x st).heatReady
    closeOk := if anyOut x st = true then false else (stcOf x st).closeOk }
  inBand : moves b x st = true → ∀ z,
    vget (stcOf y st).inBand z = if outAt x st z = true then false else vget (stcOf x st).inBand z
  zones : ∀ z, (entryOf x z).station = st → zoneOf y z = { zoneOf x z with
    inBand := if moves b x st = true ∧ outAt x st z = true then false else (zoneOf x z).inBand }

/-- An event of this kind takes a station, if anywhere, into PREHEAT, and changes no permit by it. -/
structure Wakes (b x : Block) (st : Station) : Prop where
  permit : permitOf x st = permitOf b st
  preheat : moves b x st = true →
    (stcOf x st).state = .preheat ∧ (noBand x st ∨ (stcOf x st).closeOk = false)

section Moves

variable {b x y : Block} {st : Station}

/-- The move of one station's targets at the close of the event. -/
theorem moveIfChanged_spec (h : Wakes b x st) :
    let y := moveIfChanged b st x
    Moved b x st y ∧ stcOf y (otherStation st) = stcOf x (otherStation st) ∧
    (∀ z, (entryOf x z).station ≠ st → zoneOf y z = zoneOf x z) ∧
    (∀ s, permitOf y s = permitOf x s) ∧
    y = { x with stc := y.stc, zrg := { x.zrg with zones := y.zrg.zones } } := by
  have hrecord : permitRecord x st = permitRecord b st := congrArg (fun p => p.2.2) h.permit
  cases hm : moves b x st with
  | false =>
    have hstate : (stcOf x st).state = (stcOf b st).state := by simpa [moves] using hm
    have same : moveIfChanged b st x = x := if_pos ⟨hstate, hrecord⟩
    rw [same]
    refine ⟨⟨fun _ => rfl, fun h => ?_, fun h => ?_, fun z _ => ?_⟩, rfl, fun _ _ => rfl, fun _ => rfl, rfl⟩
    · rw [hm] at h; cases h
    · rw [hm] at h; cases h
    · simp [hm]
  | true =>
    obtain ⟨hpre, hk⟩ := h.preheat hm
    have hstate : ¬ stateOf x st = stateOf b st := of_decide_eq_true hm
    have acts : moveIfChanged b st x = moveTargets st x := if_neg fun h => hstate h.1
    have hr : (stcOf x st).state ≠ .ready := by rw [hpre]; decide
    have hc : (stcOf x st).state ≠ .curing := by rw [hpre]; decide
    obtain ⟨bst, binb, bz, bo, bb⟩ := moveTargets_spec hr hc
    rw [acts]
    refine ⟨⟨fun h => ?_, fun _ => bst, fun _ => binb, fun z _ => ?_⟩, bo, fun z hz => ?_,
      permitOf_moveTargets hr hc hk, bb⟩
    · rw [hm] at h; cases h
    · rw [bz]
      simp [hm]
    · have hout : outAt x st z = false := Bool.eq_false_iff.mpr fun h =>
        hz ((mem_zonesOf x st z).mp (outAt_eq_true.mp h).1).2
      rw [bz, hout]
      rfl

/-- What stands for a station and its zones only depends on them. -/
theorem outAt_congr (htab : y.tab = x.tab) (hst : stcOf y st = stcOf x st)
    (hz : ∀ z, (entryOf x z).station = st → zoneOf y z = zoneOf x z) : outAt y st = outAt x st := by
  funext z
  unfold outAt
  rw [zonesOf_congr st htab]
  by_cases hmem : z ∈ zonesOf x st
  · have hstation := ((mem_zonesOf x st z).mp hmem).2
    have htarget : zoneTarget y z = zoneTarget x z := by
      refine zoneTarget_congr y x z htab ?_ ?_ ?_ <;>
        rw [show (entryOf y z).station = st by rw [entryOf, htab]; exact hstation, hst]
    rw [hz z hstation, htarget]
  · simp [hmem]

theorem Moved.congr {v w : Block} (h : Moved b y st w) (htab : y.tab = x.tab) (hst : stcOf y st = stcOf x st)
    (hz : ∀ z, (entryOf x z).station = st → zoneOf y z = zoneOf x z) (hv : stcOf v st = stcOf w st)
    (hvz : ∀ z, (entryOf x z).station = st → zoneOf v z = zoneOf w z) : Moved b x st v := by
  have hm : moves b y st = moves b x st := by rw [moves, hst, moves]
  have hout := outAt_congr htab hst hz
  have hany : anyOut y st = anyOut x st := by rw [anyOut, hout, anyOut]
  obtain ⟨h1, h2, h3, h4⟩ := h
  rw [hm, hst] at h1
  rw [hm, hst, hany] at h2
  rw [hm, hst, hout] at h3
  rw [hm, hout] at h4
  refine ⟨fun h => hv.trans (h1 h), fun h => ?_, fun h => ?_, fun z hs => ?_⟩
  · rw [hv]; exact h2 h
  · rw [hv]; exact h3 h
  · rw [hvz z hs, h4 z (by rw [entryOf, htab]; exact hs), hz z hs]

/-- The close of an event that wakes one station, both or none. -/
theorem event_wakes (h : ∀ st, Wakes b x st) :
    let y := event (fun _ => x) b
    (∀ st, Moved b x st y) ∧ y = { x with stc := y.stc, zrg := { x.zrg with zones := y.zrg.zones } } := by
  obtain ⟨ma, oa, za, pa, ba⟩ := moveIfChanged_spec (h .a)
  have moved : event (fun _ => x) b = postPermits x (moveIfChanged b .b (moveIfChanged b .a x)) := by
    have posts : postPermits b x = x := (postPermits_eq b x).1 fun st => (h st).permit
    unfold event
    dsimp only
    rw [posts]
    rfl
  generalize moveIfChanged b .a x = y at ma oa za pa ba moved
  have htab : y.tab = x.tab := by rw [ba]
  have hzones (z : Fin 32) (hz : (entryOf x z).station = .b) : zoneOf y z = zoneOf x z :=
    za z (by rw [hz]; decide)
  have hb : Wakes b y .b := by
    refine ⟨(pa .b).trans (h .b).permit, fun hm => ?_⟩
    have oa : stcOf y .b = stcOf x .b := oa
    rw [moves, oa] at hm
    obtain ⟨hpre, hk⟩ := (h .b).preheat hm
    rw [oa]
    refine ⟨hpre, hk.imp_left fun hn z hz => ?_⟩
    rw [zonesOf_congr .b htab] at hz
    rw [hzones z ((mem_zonesOf x .b z).mp hz).2]
    exact hn z hz
  obtain ⟨mb, ob, zb, pb, bb⟩ := moveIfChanged_spec hb
  generalize moveIfChanged b .b y = t at mb ob zb pb bb moved
  rw [moved, (postPermits_eq x t).1 fun st => (pb st).trans (pa st)]
  refine ⟨fun st => ?_, bb.trans (by rw [ba])⟩
  cases st with
  | a =>
    have apart (z : Fin 32) (hz : (entryOf x z).station = .a) : (entryOf y z).station ≠ .b := by
      rw [entryOf, htab]
      exact fun h => Station.noConfusion (h.symm.trans hz)
    exact ma.congr rfl rfl (fun _ _ => rfl) ob fun z hz => zb z (apart z hz)
  | b => exact mb.congr htab oa hzones rfl fun _ _ => rfl

end Moves

end Sys2Proof.Machine
end

section
/-! PROOFS. BUDGET_PERIOD_EXPIRY (R110 to R118): the budget event, then the moves of the targets of the stations it woke. -/

namespace Sys2Proof.Machine

open Sys2Proof

section Budget

variable {b u x y : Block} {p : Station → Prop}

/-- A block that differs in the grants of its zones, but in no station and no table. -/
structure Clipped (b u : Block) : Prop where
  stc : u.stc = b.stc
  tab : u.tab = b.tab
  zones : ∀ z, zoneOf u z = { zoneOf b z with g := min (zoneOf b z).g (allowanceOf u z) }

/-- The zone of a station that wakes leaves OFF with it. -/
theorem Woken.zone {st : Station} {q : Prop} (h : Woken q u st x) {z : Fin 32} (hz : (entryOf u z).station = st) :
    (q ∧ heats u st → zoneOf x z = leftOff u st z) ∧ (¬ (q ∧ heats u st) → zoneOf x z = zoneOf u z) :=
  ⟨fun hh => h.zonesHeated hh.1 hh.2 z hz, fun hh => h.zonesKept hh z hz⟩

theorem Clipped.heats (h : Clipped b u) (st : Station) : Machine.heats u st ↔ Machine.heats b st := by
  rw [Machine.heats, Machine.heats, zonesOf_congr st h.tab, stcOf, h.stc, stcOf]

theorem Clipped.entry (h : Clipped b u) (z : Fin 32) : entryOf u z = entryOf b z := by rw [entryOf, h.tab, entryOf]

/-- A wake changes no zone's band and no target it was judged at. -/
theorem Clipped.judged (h : Clipped b u) (hw : ∀ st, Woken (p st) u st x) (z : Fin 32) :
    (zoneOf x z).inBand = (zoneOf b z).inBand ∧ (zoneOf x z).lastTarget = (zoneOf b z).lastTarget := by
  obtain ⟨left, kept⟩ := (hw (entryOf u z).station).zone rfl
  by_cases hh : p (entryOf u z).station ∧ Machine.heats u (entryOf u z).station
  · obtain ⟨hin, hlast⟩ := leftOff_judged u (entryOf u z).station z
    rw [left hh, hin, hlast, h.zones]
    exact ⟨rfl, rfl⟩
  · rw [kept hh, h.zones]
    exact ⟨rfl, rfl⟩

/-- The station is woken exactly where the event takes it into another state. -/
theorem Clipped.wakes (h : Clipped b u) (hw : ∀ st, Woken (p st) u st x) (htab : x.tab = b.tab)
    (hk : ∀ st, p st → noBand b st ∨ (stcOf b st).closeOk = false) (st : Station) :
    Wakes b x st ∧ (moves b x st = true ↔ p st ∧ Machine.heats b st) := by
  have hstc : stcOf u st = stcOf b st := by rw [stcOf, h.stc, stcOf]
  have hheats := h.heats st
  have woken := hw st
  by_cases hp : p st
  · by_cases hh : Machine.heats b st
    · obtain ⟨i, hi⟩ := Option.ne_none_iff_exists'.mp hh.2.1
      have hx := woken.heated i hp (hheats.mpr hh) (by rw [hstc]; exact hi)
      rw [hstc] at hx
      have hm : moves b x st = true := by
        have hpre : (stcOf x st).state = .preheat := by rw [hx]
        unfold moves
        rw [hpre]
        rcases hh.1 with h | h <;> rw [h] <;> decide
      refine ⟨⟨by apply permitOf_congr <;> rw [hx], fun _ => ⟨by rw [hx],
        (hk st hp).imp (fun hn z hz => ?_) fun hc => ?_⟩⟩,
        fun _ => ⟨hp, hh⟩, fun _ => hm⟩
      · rw [(h.judged hw z).1]
        exact hn z (by rwa [zonesOf_congr st htab] at hz)
      · rw [hx]; exact hc
    · have hx := woken.dropped hp (mt hheats.mp hh)
      rw [hstc] at hx
      have hm : moves b x st = false := by
        unfold moves
        rw [hx]
        exact decide_eq_false (not_not_intro rfl)
      exact ⟨⟨by apply permitOf_congr <;> rw [hx], fun h => by rw [hm] at h; cases h⟩,
        fun h => (by rw [hm] at h; cases h), fun h => absurd h.2 hh⟩
  · have hx := woken.idle hp
    rw [hstc] at hx
    have hm : moves b x st = false := by
      unfold moves
      rw [hx]
      exact decide_eq_false (not_not_intro rfl)
    exact ⟨⟨by apply permitOf_congr <;> rw [hx], fun h => by rw [hm] at h; cases h⟩,
      fun h => (by rw [hm] at h; cases h), fun h => absurd h.1 hp⟩

/-- The target of a zone by a recipe (R90). -/
def recipeTarget (s : Block) (i : Fin 16) (z : Fin 32) : Int :=
  max 0 (min ((match (entryOf s z).platen with
    | .upper => ((vget s.tab.recipes i).upper : Int)
    | .lower => ((vget s.tab.recipes i).lower : Int)) + (entryOf s z).offset) 4000)

/-- A zone in band that was judged at another target than the recipe's. -/
def movedFrom (s : Block) (st : Station) (i : Fin 16) (z : Fin 32) : Bool :=
  decide (z ∈ zonesOf s st) && (zoneOf s z).inBand && decide (recipeTarget s i z ≠ (zoneOf s z).lastTarget)

/-- The zones that a woken station's move reports. -/
theorem Clipped.outAt (h : Clipped b u) (hw : ∀ st, Woken (p st) u st x) (htab : x.tab = b.tab) {st : Station}
    (hp : p st ∧ Machine.heats b st) (hy : (stcOf b st).cycle = none) {i : Fin 16} (hi : (stcOf b st).bound = some i) :
    Machine.outAt x st = movedFrom b st i := by
  have hstc : stcOf u st = stcOf b st := by rw [stcOf, h.stc, stcOf]
  have hx := (hw st).heated i hp.1 ((h.heats st).mpr hp.2) (by rw [hstc]; exact hi)
  rw [hstc] at hx
  have hstate : (stcOf x st).state = .preheat := by rw [hx]
  have hrecipe : recipeFor x st = some (vget b.tab.recipes i) := by
    simp only [recipeFor, hx, hy, hi, htab, Option.map_some]
  have hentry (z : Fin 32) : entryOf x z = entryOf b z := by rw [entryOf, htab, entryOf]
  funext z
  refine outAt_of htab (h.judged hw) (fun z hz => ?_) z
  rw [zoneTarget_heat (by rw [hentry]; exact hz) (by rw [hstate]; decide) (by rw [hstate]; decide) hrecipe, hentry]
  rfl

/-- What becomes of each station. -/
theorem Clipped.station (h : Clipped b u) (hw : ∀ st, Woken (p st) u st x) (htab : x.tab = b.tab)
    (hk : ∀ st, p st → (noBand b st ∨ (stcOf b st).closeOk = false) ∧ (stcOf b st).cycle = none)
    {st : Station} (hm : Moved b x st y) :
    (¬ p st → stcOf y st = stcOf b st) ∧
    (p st → ¬ (p st ∧ Machine.heats b st) → stcOf y st = { stcOf b st with deferredWake := false }) ∧
    (∀ i, p st ∧ Machine.heats b st → (stcOf b st).bound = some i → stcOf y st = { stcOf b st with
      deferredWake := false, state := .preheat, heatReady := false, inBand := (stcOf y st).inBand
      settle := if allInBand b st = true ∧ (List.finRange 32).any (movedFrom b st i) = false then
          some { elapsed := 0, length := (vget b.tab.recipes i).settle * 1000 }
        else none }) ∧
    (∀ i z, p st ∧ Machine.heats b st → (stcOf b st).bound = some i →
      vget (stcOf y st).inBand z = (if movedFrom b st i z = true then false else vget (stcOf b st).inBand z)) := by
  have hstc : stcOf u st = stcOf b st := by rw [stcOf, h.stc, stcOf]
  obtain ⟨wakes, hmoves⟩ := h.wakes hw htab (fun st hp => (hk st hp).1) st
  have still (hn : ¬ (p st ∧ Machine.heats b st)) : stcOf y st = stcOf x st :=
    hm.kept (Bool.eq_false_iff.mpr (mt hmoves.mp hn))
  have heated (i : Fin 16) (hh : p st ∧ Machine.heats b st) (hi : (stcOf b st).bound = some i) :
      stcOf x st = { stcOf b st with
        deferredWake := false, state := .preheat, heatReady := false
        settle := if allInBand b st = true then some { elapsed := 0, length := (vget b.tab.recipes i).settle * 1000 }
          else none } := by
    have band : allInBand u st = allInBand b st := allInBand_congr st h.tab (by rw [hstc])
    rw [(hw st).heated i hh.1 ((h.heats st).mpr hh.2) (by rw [hstc]; exact hi), hstc, band, h.tab]
  refine ⟨fun hp => ?_, fun hp hn => ?_, fun i hh hi => ?_, fun i z hh hi => ?_⟩
  · rw [still fun hh => hp hh.1, (hw st).idle hp, hstc]
  · rw [still hn, (hw st).dropped hp fun hh => hn ⟨hp, (h.heats st).mp hh⟩, hstc]
  · have hx := heated i hh hi
    have hany : anyOut x st = (List.finRange 32).any (movedFrom b st i) := by
      rw [anyOut, h.outAt hw htab hh (hk st hh.1).2 hi]
    have hclose : anyOut x st = true → (stcOf b st).closeOk = false := fun ha => by
      rcases (wakes.preheat (hmoves.mpr hh)).2 with hn | hc
      · rw [anyOut_eq_false_of_noBand hn] at ha; cases ha
      · rw [hx] at hc; exact hc
    rw [hm.stc (hmoves.mpr hh), hx, ← hany]
    cases ha : anyOut x st
    · simp
    · simp [hclose ha]
  · rw [hm.inBand (hmoves.mpr hh), h.outAt hw htab hh (hk st hh.1).2 hi, heated i hh hi]

/-- What the budget event makes of a zone before any target moves. -/
theorem Clipped.zoneWoken (h : Clipped b u) (hw : ∀ st, Woken (p st) u st x) (z : Fin 32) :
    let st := (entryOf b z).station
    let c := zoneOf b z
    let out := (p st ∧ Machine.heats b st) ∧ (stcOf b st).state = .off ∧ (entryOf b z).enabled = true ∧ c.state = .off
    (¬ out → zoneOf x z = { c with g := min c.g (allowanceOf u z) }) ∧
    (out → zoneOf x z = { c with
      g := min c.g (allowanceOf u z), state := .regulating, iq := 0, r := 0, blindHold := none
      wsp := if slotFresh b z c.slot = true then slotHeld b z c.slot
        else if slotFresh b z (otherSlot c.slot) = true then slotHeld b z (otherSlot c.slot)
        else 0 }) := by
  intro st c out
  have hstc : stcOf u st = stcOf b st := by rw [stcOf, h.stc, stcOf]
  have hzone : zoneOf u z = { c with g := min c.g (allowanceOf u z) } := h.zones z
  obtain ⟨left, kept⟩ := (hw st).zone (z := z) (by rw [h.entry])
  have leaves : ((stcOf u st).state = .off ∧ z ∈ zonesOf u st ∧ (zoneOf u z).state = .off) ↔
      ((stcOf b st).state = .off ∧ (entryOf b z).enabled = true ∧ c.state = .off) := by
    rw [hstc, mem_zonesOf, h.entry, hzone]
    simp only [st, and_true]
  refine ⟨fun ho => ?_, fun ho => ?_⟩
  · by_cases hh : p st ∧ Machine.heats b st
    · rw [left ⟨hh.1, (h.heats st).mpr hh.2⟩, leftOff, if_neg fun hl => ho ⟨hh, leaves.mp hl⟩, hzone]
    · rw [kept fun hl => hh ⟨hl.1, (h.heats st).mp hl.2⟩, hzone]
  · rw [left ⟨ho.1.1, (h.heats st).mpr ho.1.2⟩, leftOff, if_pos (leaves.mpr ho.2), hzone]
    unfold slotFresh slotHeld
    simp only [isFresh_congr h.tab, heldOf_congr h.tab]

/-- What the moves of the targets make of it. -/
theorem Clipped.zoneMoved (h : Clipped b u) (hw : ∀ st, Woken (p st) u st x) (htab : x.tab = b.tab)
    (hk : ∀ st, p st → (noBand b st ∨ (stcOf b st).closeOk = false) ∧ (stcOf b st).cycle = none)
    {z : Fin 32} (hm : Moved b x (entryOf b z).station y) :
    let st := (entryOf b z).station
    let c := zoneOf b z
    zoneOf y z = { zoneOf x z with inBand := (zoneOf y z).inBand } ∧
    (¬ (p st ∧ Machine.heats b st) → (zoneOf y z).inBand = c.inBand) ∧
    (∀ i, p st ∧ Machine.heats b st → (stcOf b st).bound = some i →
      (zoneOf y z).inBand = if movedFrom b st i z = true then false else c.inBand) := by
  intro st c
  have hmoves := (h.wakes hw htab (fun st hp => (hk st hp).1) st).2
  have zone := hm.zones z (by rw [entryOf, htab, entryOf])
  have hin : (zoneOf x z).inBand = c.inBand := (h.judged hw z).1
  refine ⟨by rw [zone], fun hn => ?_, fun i hh hi => ?_⟩
  · rw [zone, hin]
    exact if_neg fun hc => hn (hmoves.mp hc.1)
  · rw [zone, hin, h.outAt hw htab hh (hk st hh.1).2 hi, hmoves.mpr hh]
    simp only [true_and]

end Budget

/-! ### BUDGET_PERIOD_EXPIRY (R110) -/

/-- The allowances given, every grant is clipped. -/
theorem clipGrants_clipped (b : Block) (w : Pwa) :
    let u := clipGrants { b with pwa := w }
    Clipped b u ∧ u = { b with
      zrg := { b.zrg with zones := u.zrg.zones }, pwa := w
      rpu := { b.rpu with
        controlQ := if b.rpu.outPort.link = .up then
            (allZones.filter fun z => decide (vget w.allowance z < (zoneOf b z).g)).foldl (fun q z =>
              putDrive (enabledNodes b) (entryOf b z).driveNode (entryOf b z).driveChannel (vget w.allowance z) q)
              b.rpu.controlQ
          else b.rpu.controlQ } } := by
  intro u
  obtain ⟨hz, hu⟩ := clipZone_foldl allZones (List.nodup_finRange 32) { b with pwa := w }
  have acts : u = allZones.foldl (fun s z => clipZone z s) { b with pwa := w } := rfl
  rw [← acts] at hz hu
  clear_value u
  refine ⟨⟨by rw [hu], by rw [hu], fun z => ?_⟩, hu⟩
  have hallow : allowanceOf u z = vget w.allowance z := congrArg (fun p : Pwa => vget p.allowance z) (by rw [hu])
  rw [hallow]
  exact (hz z).trans (if_pos (List.mem_finRange z))

/-- What the allocation gives, with the budget timer started. -/
structure Allocated (b : Block) (w : Pwa) : Prop where
  timer : w.timer = some { elapsed := 0, length := b.tab.line.period }
  pressure : w.pressure = b.pwa.pressure
  capacity : w.capacity = capacityOf b
  load : w.load = loadsOf b
  factor : w.factor = factorsOf (loadsOf b) (capacityOf b)
  ofClass : ∀ z k, zoneClass b z = some k →
    vget w.allowance z = demandOf b z * (factorsOf (loadsOf b) (capacityOf b)).get k / 1024
  ofNone : ∀ z, zoneClass b z = none → vget w.allowance z = 0
  allowanceLoad : w.allowanceLoad = (allZones.map fun z => vget w.allowance z * (entryOf b z).ratedPower).sum
  within : w.allowanceLoad ≤ capacityOf b

theorem loadsOf_startBudget (b : Block) : loadsOf (startBudget b) = loadsOf b := by
  have classes : zoneClass (startBudget b) = zoneClass b := rfl
  have demands : demandOf (startBudget b) = demandOf b := rfl
  have entries : entryOf (startBudget b) = entryOf b := rfl
  simp only [loadsOf, loadOf, classes, demands, entries]

theorem allocate_allocated (b : Block) : Allocated b (allocate (startBudget b)).pwa := by
  have loads : loadsOf (startBudget b) = loadsOf b := loadsOf_startBudget b
  have factors : factorsOf (loadsOf (startBudget b)) (capacityOf (startBudget b)) =
      factorsOf (loadsOf b) (capacityOf b) := congrArg (factorsOf · (capacityOf b)) loads
  let f := factorsOf (loadsOf (startBudget b)) (capacityOf (startBudget b))
  have allowance (z : Fin 32) : vget (allocate (startBudget b)).pwa.allowance z = allowanceFor (startBudget b) f z :=
    vget_ofFn (allowanceFor (startBudget b) f) z
  refine ⟨rfl, by simp only [allocate, startBudget], rfl, loads, factors, fun z k hz => ?_, fun z hz => ?_, ?_,
    allowanceLoad_le (startBudget b)⟩
  · rw [allowance, allowanceFor_of_class (s := startBudget b) hz, ← factors]
    rfl
  · rw [allowance, allowanceFor_of_none (s := startBudget b) hz]
  · simp only [allowance]
    rfl

theorem budget_runs {s : State} (h : s.pwa.timer ≠ none) : ∃ w, Allocated s.toBlock w ∧
    exec .budgetPeriodExpiry s = .next (s.closing
      (event (fun _ => judgePressure (clipGrants { s.toBlock with pwa := w })) s.toBlock)) :=
  ⟨_, allocate_allocated s.toBlock, finish_running h (event_congr rfl)⟩

/-- Settles O49: the budget event, then the moves of the targets of the stations whose deferred wake it let go. -/
theorem budgetPeriod : Obligations.BudgetPeriod := by
  intro s b C load left factor r1 F sum
  refine ⟨fun h => finish_stopped h, fun h => finish_running h (event_congr rfl), fun h hk => ?_⟩
  obtain ⟨w, hall, hexec⟩ := budget_runs h
  obtain ⟨hc, hu⟩ := clipGrants_clipped b w
  change exec .budgetPeriodExpiry s = .next (s.closing (event (fun _ => judgePressure (clipGrants { b with pwa := w })) b))
    at hexec
  generalize clipGrants { b with pwa := w } = u at hc hu hexec
  obtain ⟨hw, hx⟩ := judgePressure_spec (s := u) (fun st hd => by
    rw [stcOf, hc.stc] at hd ⊢
    exact (hk st hd).2)
  generalize judgePressure u = x at hw hx hexec
  have hstc (st : Station) : stcOf u st = stcOf b st := by rw [stcOf, hc.stc, stcOf]
  have htab : x.tab = b.tab := by rw [hx]; exact hc.tab
  have hk' : ∀ st, (u.pwa.pressure = true ∧ pressureAfter u = false) ∧ (stcOf u st).deferredWake = true →
      (noBand b st ∨ (stcOf b st).closeOk = false) ∧ (stcOf b st).cycle = none := fun st hp => by
    rw [hstc] at hp
    exact hk st hp.2
  obtain ⟨hm, ht⟩ := event_wakes fun st => (hc.wakes hw htab (fun st hp => (hk' st hp).1) st).1
  generalize event (fun _ => x) b = t at hexec hm ht
  have hpwa : t.pwa = { w with pressure := pressureAfter u } := by
    rw [ht, hx, hu]
  have hp : t.pwa.pressure = pressureAfter u := by rw [hpwa]
  refine ⟨t, hexec, ?_, ?_, ?_, ?_, ?_, ?_, ?_, ?_, ?_, ?_⟩
  · rw [hpwa]; exact hall.timer
  · rw [hpwa]; exact hall.capacity
  · rw [hpwa]; exact hall.load
  · rw [hpwa]; exact hall.factor
  · intro z k hz
    rw [hpwa]
    refine (hall.ofClass z k hz).trans ?_
    cases k <;> rfl
  · rw [hpwa]; exact hall.ofNone
  · rw [hpwa]; exact hall.allowanceLoad
  · rw [hpwa]; exact hall.within
  · rw [hp, pressureAfter, loadSum, show u.pwa = w by rw [hu], hc.tab, hall.load, hall.capacity, hall.pressure]
    rfl
  have hallow : vget t.pwa.allowance = allowanceOf u := by
    funext z
    rw [hpwa, hu]
    rfl
  let W (st : Station) : Prop := s.pwa.pressure = true ∧ t.pwa.pressure = false ∧ (stcOf b st).deferredWake = true
  have hW : (fun st => (u.pwa.pressure = true ∧ pressureAfter u = false) ∧ (stcOf u st).deferredWake = true) = W := by
    funext st
    rw [hstc, and_assoc, show u.pwa = w by rw [hu], hall.pressure, ← hp]
  have hwW : ∀ st, Woken (W st) u st x := hW ▸ hw
  have hkW : ∀ st, W st → (noBand b st ∨ (stcOf b st).closeOk = false) ∧ (stcOf b st).cycle = none := hW ▸ hk'
  intro wakes heats' clip T moved
  refine ⟨fun st => hc.station hwW htab hkW (hm st), fun z => ?_, ?_⟩
  · intro c st out g inBand
    obtain ⟨stays, leaves⟩ := hc.zoneWoken hwW z
    obtain ⟨hz, hkept, hmoved⟩ := hc.zoneMoved hwW htab hkW (hm (entryOf b z).station)
    have band : (zoneOf t z).inBand = inBand := by
      by_cases hh : heats' st
      · obtain ⟨i, hi⟩ := Option.ne_none_iff_exists'.mp hh.2.2.1
        rw [hmoved i hh hi]
        simp only [inBand, hi]
        by_cases hmv : movedFrom b st i z = true
        · rw [if_pos hmv]
          exact (if_pos ⟨hh, hmv⟩).symm
        · rw [if_neg hmv]
          exact (if_neg fun h => hmv h.2).symm
      · rw [hkept hh]
        cases hb : (stcOf b st).bound with
        | none => simp only [inBand, hb]; rfl
        | some i =>
          simp only [inBand, hb]
          exact (if_neg fun h => hh h.1).symm
    rw [band] at hz
    have hg : g = min c.g (allowanceOf u z) := congrArg (min c.g) (congrFun hallow z)
    refine ⟨fun ho => ?_, fun ho => ?_⟩
    · rw [hz, stays ho, hg]
    · rw [hz, leaves ho, hg]
  · have hcdu : (setLevel .budgetPressure (pressureAfter u) u).cdu = (setLevel .budgetPressure t.pwa.pressure b).cdu := by
      rw [setLevel_spec, setLevel_spec, hp, show u.cdu = b.cdu by rw [hu]]
    have hxpwa : { u.pwa with pressure := pressureAfter u } = t.pwa := by rw [hpwa, hu]
    have hw : w.allowance = t.pwa.allowance := by rw [hpwa]
    rw [hxpwa, hcdu] at hx
    rw [hw] at hu
    refine ht.trans ?_
    rw [hx, hu]

end Sys2Proof.Machine
end

section
/-! PROOFS. REGULATION_EVENT (R88): sensor selection, the action of each zone state, the reports to the station and the
platen summary. -/

namespace Sys2Proof.Machine

open Sys2Proof

section Regulation

variable {s : Block} {z : Fin 32}

/-! ### Sensor selection (R92, R93) -/

/-- A zone's context put in its place. -/
def zoneSet (z : Fin 32) (k : Zone) (s : Block) : Block := modZone z (fun _ => k) s

theorem modZone_eq_zoneSet (f : Zone → Zone) (s : Block) : modZone z f s = zoneSet z (f (zoneOf s z)) s :=
  modZone_congr z _ _ s rfl

theorem zoneOf_zoneSet (k : Zone) (s : Block) : zoneOf (zoneSet z k s) z = k := zoneOf_modZone_self s z _

theorem modZone_zoneSet (f : Zone → Zone) (k : Zone) (s : Block) : modZone z f (zoneSet z k s) = zoneSet z (f k) s :=
  modZone_modZone z _ _ s

/-- The zone's context with a new scan window for a slot (R93). -/
def anewZone (e : ZoneEntry) (sl : Slot) (c : Zone) : Zone :=
  { c with
    slot := sl, windowPos := 0, faults0 := 0, faults1 := 0, windowLen := e.scanWindow, windowMargin := e.switchMargin }

/-- The other slot selected, which CURING flags (R93, R94). -/
def switchedBlock (z : Fin 32) (s : Block) : Block :=
  let st := (entryOf s z).station
  let x := zoneSet z (anewZone (entryOf s z) (otherSlot (zoneOf s z).slot) (zoneOf s z)) s
  if stateOf s st = .curing then setFlag st .sensorSwitched x else x

theorem switchSlot_advanced (k : Zone) (hk : anewZone (entryOf s z) (otherSlot k.slot) k =
    anewZone (entryOf s z) (otherSlot (zoneOf s z).slot) (zoneOf s z)) :
    switchSlot z (zoneSet z k s) = switchedBlock z s := by
  have switched : modZone z (fun c => restartWindow (entryOf s z) { c with slot := otherSlot c.slot }) (zoneSet z k s) =
      zoneSet z (anewZone (entryOf s z) (otherSlot (zoneOf s z).slot) (zoneOf s z)) s :=
    (modZone_zoneSet _ k s).trans (by rw [← hk]; rfl)
  unfold switchSlot switchedBlock
  dsimp only
  rw [← switched]
  rfl

theorem selectSensor_eq : let c := zoneOf s z
    selectSensor z s =
      if slotFresh s z c.slot = false ∧ slotFresh s z (otherSlot c.slot) = true then switchedBlock z s
      else if c.windowLen ≤ c.windowPos + 1 then
        if faultsOf c (otherSlot c.slot) + c.windowMargin < faultsOf c c.slot ∧
            slotFresh s z (otherSlot c.slot) = true then
          switchedBlock z s
        else zoneSet z (anewZone (entryOf s z) c.slot c) s
      else zoneSet z { c with windowPos := c.windowPos + 1 } s := by
  intro c
  let k : Zone := { c with windowPos := c.windowPos + 1 }
  have advanced : modZone z (fun c => { c with windowPos := c.windowPos + 1 }) s = zoneSet z k s := modZone_eq_zoneSet _ s
  have hk : zoneOf (zoneSet z k s) z = k := zoneOf_zoneSet k s
  have hfresh (sl : Slot) : slotFresh (zoneSet z k s) z sl = slotFresh s z sl := rfl
  have hsw : switchSlot z (zoneSet z k s) = switchedBlock z s := switchSlot_advanced k rfl
  have hend : modZone z (restartWindow (entryOf (zoneSet z k s) z)) (zoneSet z k s) =
      zoneSet z (anewZone (entryOf s z) c.slot c) s := modZone_zoneSet _ k s
  have hbetter : (windowSwitch (zoneSet z k s) z = true) ↔
      faultsOf c (otherSlot c.slot) + c.windowMargin < faultsOf c c.slot ∧ slotFresh s z (otherSlot c.slot) = true := by
    unfold windowSwitch
    dsimp only
    rw [hk, Bool.and_eq_true, decide_eq_true_iff]
    rfl
  unfold selectSensor
  dsimp only
  rw [advanced, hsw, hend, hk]
  simp only [hfresh, hbetter, Bool.and_eq_true, Bool.not_eq_true']
  rfl

/-! ### The regulation computation (R95, R96) -/

theorem errorOf_eq (tw pv : Int) : errorOf tw pv = max (-2000) (min 2000 (tw - pv)) := by
  rw [errorOf, clampInt, min_comm]

theorem nextIntegral_eq (e : ZoneEntry) (iq err : Int) : nextIntegral e iq err =
    (let cand := iq + e.ki * err
     let v : Int := (e.kp * err + cand + 128) / 256 + e.ff
     if (e.dutyCeiling < v ∧ 0 < err) ∨ (v < 0 ∧ err < 0) then iq else max 0 (min 256000 cand)) := by
  unfold nextIntegral clampInt
  dsimp only
  rw [min_comm]
  rfl

theorem nextDuty_eq (e : ZoneEntry) (iq err : Int) (prev : Nat) : nextDuty e iq err prev =
    (let u : Int := max 0 (min (e.dutyCeiling : Int) ((e.kp * err + iq + 128) / 256 + e.ff))
     (max ((prev : Int) - e.slew) (min u ((prev : Int) + e.slew))).toNat) := by
  unfold nextDuty clampInt
  dsimp only
  rw [min_comm (round256 _ + _)]
  rfl

/-! ### Each zone state (R88, R97 to R102) -/

/-- A band reported where it changes, the zone's context being `k` (R106). -/
def reportedBand (st : Station) (z : Fin 32) (k : Zone) (band : Bool) (x : Block) : Block :=
  if k.inBand = band then x else zoneReport st z band (modZone z (fun c => { c with inBand := band }) x)

theorem zoneOf_postDuty (s : Block) : zoneOf (postDuty z s) z = zoneOf s z := by rw [postDuty_eq]; rfl

theorem entryOf_postDuty (s : Block) : entryOf (postDuty z s) z = entryOf s z := by rw [postDuty_eq]; rfl

theorem setBand_posted (k : Zone) (band : Bool) : setBand z band (postDuty z (zoneSet z k s)) =
    reportedBand (entryOf s z).station z k band (postDuty z (zoneSet z k s)) := by
  unfold setBand reportedBand
  rw [zoneOf_postDuty, zoneOf_zoneSet, entryOf_postDuty]
  rfl

theorem setBand_faulted (k : Zone) : setBand z false (postDuty z (dropAllowance z (zoneSet z k s))) =
    reportedBand (entryOf s z).station z k false (postDuty z (dropAllowance z (zoneSet z k s))) := by
  have hk : zoneOf (dropAllowance z (zoneSet z k s)) z = k := zoneOf_zoneSet k s
  unfold setBand reportedBand
  rw [zoneOf_postDuty, hk, entryOf_postDuty]
  rfl

/-- The zone enters FAULT from context `k` (R102). -/
def overheated (z : Fin 32) (k : Zone) (s : Block) : Block :=
  let st := (entryOf s z).station
  let x := reportedBand st z (faultedZone .overtemp k) false
    (postDuty z (dropAllowance z (zoneSet z (faultedZone .overtemp k) s)))
  let y := setLevel (.heatFault st) (anyFault x st) x
  if stateOf x st = .curing then setFlag st .heatFault y else y

theorem stateOf_setLevel (c : Cond) (on : Bool) (s : Block) (st : Station) :
    stateOf (setLevel c on s) st = stateOf s st := by
  rw [setLevel_spec]
  rfl

theorem enterFault_overheated (k : Zone) : enterFault z .overtemp (zoneSet z k s) = overheated z k s := by
  unfold enterFault overheated judgeHeatFault
  dsimp only
  rw [modZone_zoneSet, setBand_faulted, stateOf_setLevel]
  rfl

theorem judgedIn_posted (k : Zone) (t pv : Int) : judgedIn (postDuty z (zoneSet z k s)) z t pv =
    decide (k.wsp = t ∧ (t - pv).natAbs ≤ bandWidth s z ∧ stateOf s (entryOf s z).station ≠ .off ∧
      stateOf s (entryOf s z).station ≠ .standby) := by
  have hstate : stateOf (postDuty z (zoneSet z k s)) (entryOf s z).station = stateOf s (entryOf s z).station := by
    rw [postDuty_eq]; rfl
  have hwidth : bandWidth (postDuty z (zoneSet z k s)) z = bandWidth s z := by rw [postDuty_eq]; rfl
  have hmay (x : StationState) : settleMayRun x = decide (x ≠ .off ∧ x ≠ .standby) := by cases x <;> rfl
  unfold judgedIn
  rw [zoneOf_postDuty, zoneOf_zoneSet, entryOf_postDuty]
  change (settleMayRun (stateOf (postDuty z (zoneSet z k s)) (entryOf s z).station) && _ && _) = _
  rw [hstate, hwidth, hmay, Bool.eq_iff_iff]
  simp only [Bool.and_eq_true, decide_eq_true_iff]
  tauto

/-- A REGULATING event with a usable PV, the zone's context being `k` (R88). -/
theorem regulateUsable_zoneSet (k : Zone) :
    let e := entryOf s z
    let pv := slotHeld s z k.slot
    let t := zoneTarget s z
    let w := computedZone e t pv (allowanceOf s z) k
    regulateUsable z (zoneSet z k s) =
      if (e.overtempLimit : Int) < pv then overheated z k s
      else reportedBand e.station z w
        (decide (w.wsp = t ∧ (t - pv).natAbs ≤ bandWidth s z ∧ stateOf s e.station ≠ .off ∧
          stateOf s e.station ≠ .standby))
        (postDuty z (zoneSet z w s)) := by
  intro e pv t w
  have hpv : pvOf (zoneSet z k s) z = pv := by rw [pvOf, zoneOf_zoneSet]; rfl
  have hput : modZone z (computedZone e t pv (allowanceOf s z)) (zoneSet z k s) = zoneSet z w s := modZone_zoneSet _ k s
  unfold regulateUsable
  dsimp only
  rw [hpv, enterFault_overheated]
  change (if (e.overtempLimit : Int) < pv then _ else setBand z (judgedIn (postDuty z (modZone z (computedZone e t pv
    (allowanceOf s z)) (zoneSet z k s))) z t pv) (postDuty z (modZone z (computedZone e t pv (allowanceOf s z))
      (zoneSet z k s)))) = _
  rw [hput, judgedIn_posted, setBand_posted]

/-- A BLIND event with PV not usable, the zone's context being `k` (R100). -/
theorem blindDuty_zoneSet (k : Zone) :
    let w := blindZone (entryOf s z) (zoneTarget s z) (allowanceOf s z) k
    blindDuty z (zoneSet z k s) = reportedBand (entryOf s z).station z w false (postDuty z (zoneSet z w s)) := by
  intro w
  have hput : modZone z (blindZone (entryOf s z) (zoneTarget s z) (allowanceOf s z)) (zoneSet z k s) = zoneSet z w s :=
    modZone_zoneSet _ k s
  rw [← setBand_posted, ← hput]
  rfl

theorem zoneSet_self (s : Block) : zoneSet z (zoneOf s z) s = s := by
  unfold zoneSet modZone zoneOf
  rw [vset_vget]

/-! ### The action by the zone's state (R88) -/

theorem regulateByState_disabled (h : (zoneOf s z).state = .disabled) : regulateByState z s = s := by
  simp only [regulateByState, h]

theorem regulateByState_resting (h : (zoneOf s z).state = .off ∨ (zoneOf s z).state = .fault) :
    regulateByState z s = setBand z false (postDuty z (zoneSet z { zoneOf s z with r := 0, g := 0 } s)) := by
  rw [← modZone_eq_zoneSet fun c => { c with r := 0, g := 0 }]
  rcases h with h | h <;> simp only [regulateByState, h]

theorem regulateByState_regulating (h : (zoneOf s z).state = .regulating) : regulateByState z s =
    if slotFresh s z (zoneOf s z).slot = true then regulateUsable z (zoneSet z (zoneOf s z) s)
    else blindDuty z (zoneSet z { zoneOf s z with
      state := .blind, blindBase := (zoneOf s z).r
      blindHold := some { elapsed := 0, length := (entryOf s z).blindHold * 1000 } } s) := by
  rw [zoneSet_self, ← modZone_eq_zoneSet fun c => { c with
    state := .blind, blindBase := c.r, blindHold := some { elapsed := 0, length := (entryOf s z).blindHold * 1000 } }]
  simp only [regulateByState, h]
  rfl

theorem regulateByState_blind (h : (zoneOf s z).state = .blind) : regulateByState z s =
    if slotFresh s z (zoneOf s z).slot = true then
      regulateUsable z (zoneSet z { zoneOf s z with state := .regulating, blindHold := none } s)
    else blindDuty z (zoneSet z (zoneOf s z) s) := by
  rw [zoneSet_self, ← modZone_eq_zoneSet fun c => { c with state := .regulating, blindHold := none }]
  simp only [regulateByState, h]
  rfl

/-! ### Reports to the station (R66, R67, R75, R106) -/

variable {st : Station}

/-- The settle timer starts where it is stopped, may run, and every enabled zone is in band. -/
def settleBegins (s : Block) (st : Station) : Prop :=
  (stcOf s st).settle = none ∧ (stcOf s st).state ≠ .off ∧ (stcOf s st).state ≠ .standby ∧ allInBand s st = true

theorem startSettle_begins {r : Recipe} (hr : recipeFor s st = some r) (h : settleBegins s st) : startSettle st s =
    modStc st (fun c => { c with settle := some { elapsed := 0, length := r.settle * 1000 } }) s := by
  obtain ⟨hnone, hoff, hstandby, hband⟩ := h
  have hmay : settleMayRun (stcOf s st).state = true := by
    cases hs : (stcOf s st).state <;> first | rfl | exact absurd hs hoff | exact absurd hs hstandby
  rw [startSettle_eq hmay hnone hr, hband]
  rfl

theorem startSettle_idle (h : ¬ settleBegins s st) : startSettle st s = s := by
  refine if_neg fun hc => h ?_
  simp only [Bool.and_eq_true, Option.isNone_iff_eq_none] at hc
  obtain ⟨⟨hmay, hnone⟩, hband⟩ := hc
  refine ⟨hnone, ?_, ?_, hband⟩ <;> intro h <;> rw [h] at hmay <;> cases hmay

theorem clearHeat_ready (h : (stcOf s st).state = .ready) : clearHeat st s =
    setNoCycle st .none (modStc st (fun c => { c with
      state := .preheat, settle := none, heatReady := false, closeOk := false }) s) := by
  have hstate : stateOf (modStc st (fun c => { c with settle := none, heatReady := false, closeOk := false }) s) st =
      .ready := by
    rw [stateOf, stcOf_modStc_self s st fun c => { c with settle := none, heatReady := false, closeOk := false }]
    exact h
  unfold clearHeat readyToPreheat setState
  rw [if_pos hstate, modStc_modStc]

theorem clearHeat_notReady (h : (stcOf s st).state ≠ .ready) : clearHeat st s =
    modStc st (fun c => { c with settle := none, heatReady := false, closeOk := false }) s := by
  have hstate : stateOf (modStc st (fun c => { c with settle := none, heatReady := false, closeOk := false }) s) st =
      (stcOf s st).state := by
    rw [stateOf, stcOf_modStc_self s st fun c => { c with settle := none, heatReady := false, closeOk := false }]
  unfold clearHeat readyToPreheat
  rw [hstate, if_neg h]

/-- Two changes that come to the same. -/
theorem modStc_twice {f g f' g' : Stc → Stc} (h : f (g (stcOf s st)) = f' (g' (stcOf s st))) :
    modStc st f (modStc st g s) = modStc st f' (modStc st g' s) := by
  rw [modStc_modStc, modStc_modStc]
  exact modStc_congr st _ _ s h

/-! ### The platen summary (R107) -/

theorem summarise_idle (h : (stcOf s (entryOf s z).station).state ≠ .curing ∨ (entryOf s z).enabled = false ∨
    slotFresh s z (zoneOf s z).slot = false) : summarise z s = s := by
  refine if_neg fun hc => ?_
  simp only [Bool.and_eq_true, decide_eq_true_eq] at hc
  obtain ⟨⟨hcuring, hen⟩, husable⟩ := hc
  rcases h with h | h | h
  · exact h hcuring
  · rw [h] at hen; cases hen
  · exact Bool.false_ne_true (h.symm.trans husable)

theorem summarise_writes {cy : Cycle} {i : Fin 48} {w : Record} {p : CurePart}
    (hs : (stcOf s (entryOf s z).station).state = .curing) (hen : (entryOf s z).enabled = true)
    (husable : slotFresh s z (zoneOf s z).slot = true) (hc : (stcOf s (entryOf s z).station).cycle = some cy)
    (ho : openIn s i cy.record w) (hp : w.cure = some p) :
    let e := entryOf s z
    let m := s.zrg.markers.get e.station
    summarise z s =
      { writes i { w with cure := some (withPv e.platen (markerOf m e.platen) (slotHeld s z (zoneOf s z).slot) p) } s with
        zrg := { s.zrg with markers := s.zrg.markers.set e.station (startMarker e.platen m) } } := by
  intro e m
  have taken := modOpenRecord_writes hc ho
    (fun r => { r with cure := r.cure.map (withPv e.platen (markerOf m e.platen) (pvOf s z)) })
  rw [hp] at taken
  have cond : (decide (stateOf s e.station = .curing) && e.enabled && pvUsable s z) = true := by
    rw [Bool.and_eq_true, Bool.and_eq_true, decide_eq_true_iff]
    exact ⟨⟨hs, hen⟩, husable⟩
  refine (if_pos cond).trans ?_
  dsimp only
  rw [taken]
  rfl

end Regulation

theorem zone_with_state {c : Zone} {x : ZoneState} (h : c.state = x) : { c with state := x } = c := by
  rw [← h]

/-- Settles O47: the selection, the event of each zone state, the report it makes and the summary. -/
theorem regulationEvent : Obligations.RegulationEvent := by
  intro z s b0 c e restarted
  refine ⟨fun h => finish_stopped h, fun h => finish_running h (event_congr rfl), fun b => ?_⟩
  intro c e st T pv usable allow ramp put posted faults other anew lost ended better switched reported ends fault faulted
    err cand v iq u r judged computed blind
  have hself : zoneSet z c b = b := zoneSet_self b
  have hfaults : faultsOf c = faults := by funext sl; cases sl <;> rfl
  have hbetter : (faultsOf c other + c.windowMargin < faultsOf c c.slot ∧ slotFresh b z other = true) ↔ better :=
    hfaults ▸ Iff.rfl
  have hsel := selectSensor_eq (s := b) (z := z)
  have hswitched : switchedBlock z b = switched := rfl
  have hcomputed (k : Zone) (hw : k.wsp = c.wsp) (hi : k.iq = c.iq) (hr : k.r = c.r) :
      computedZone e T pv (allowanceOf b z) k =
        { k with wsp := ramp, iq := iq, r := r, g := min r allow, lastTarget := T } := by
    unfold computedZone
    dsimp only
    rw [hw, hi, hr, nextDuty_eq, errorOf_eq, nextIntegral_eq]
    rfl
  have husable (k : Zone) (hk : k.slot = c.slot) (hw : k.wsp = c.wsp) (hi : k.iq = c.iq) (hr : k.r = c.r) :
      (pv ≤ e.overtempLimit → regulateUsable z (zoneSet z k b) =
        reported { k with wsp := ramp, iq := iq, r := r, g := min r allow, lastTarget := T } judged
          (posted { k with wsp := ramp, iq := iq, r := r, g := min r allow, lastTarget := T })) ∧
      ((e.overtempLimit : Int) < pv → regulateUsable z (zoneSet z k b) = overheated z k b) := by
    have usable_eq := regulateUsable_zoneSet (s := b) (z := z) k
    rw [hk] at usable_eq
    refine ⟨fun hle => ?_, fun hlt => ?_⟩
    · refine usable_eq.trans ((if_neg (not_lt.mpr hle)).trans ?_)
      rw [show computedZone (entryOf b z) (zoneTarget b z) (slotHeld b z c.slot) (allowanceOf b z) k = _ from
        hcomputed k hw hi hr]
      rfl
    · exact usable_eq.trans (if_pos hlt)
  let back : Zone := { c with state := .regulating, blindHold := none }
  refine ⟨fun h => hsel.trans (if_pos h), fun h he => hsel.trans ((if_neg h).trans (if_neg he)), fun h he hb => ?_,
    fun h he hb => ?_, fun h => regulateByState_disabled h, fun h => ?_, fun h hu hl => ?_, fun h hu hl => ?_,
    fun h hu => ?_, fun h hu => ?_,
    fun h hu hl => ?_, fun h hu hl => ?_, fun band rc hr => ?_, fun h => summarise_idle h,
    fun cy i w p hs hen hu hc ho hp => ?_⟩
  · exact hsel.trans ((if_neg h).trans ((if_pos he).trans (if_pos (hbetter.mpr hb))))
  · exact hsel.trans ((if_neg h).trans ((if_pos he).trans (if_neg (mt hbetter.mp hb))))
  · exact (regulateByState_resting h).trans (setBand_posted _ _)
  · exact (regulateByState_regulating h).trans ((if_pos hu).trans ((husable c rfl rfl rfl rfl).1 hl))
  · exact (regulateByState_regulating h).trans ((if_pos hu).trans ((husable c rfl rfl rfl rfl).2 hl))
  · exact (regulateByState_regulating h).trans ((if_neg (Bool.eq_false_iff.mp hu)).trans (blindDuty_zoneSet _))
  · have hblind : blindZone e T (allowanceOf b z) c = blind c.blindBase :=
      congrArg (blindZone e T (allowanceOf b z)) (zone_with_state h).symm
    refine (regulateByState_blind h).trans ((if_neg (Bool.eq_false_iff.mp hu)).trans ((blindDuty_zoneSet c).trans ?_))
    rw [show blindZone (entryOf b z) (zoneTarget b z) (allowanceOf b z) c = _ from hblind]
    rfl
  · exact (regulateByState_blind h).trans ((if_pos hu).trans ((husable back rfl rfl rfl rfl).1 hl))
  · exact (regulateByState_blind h).trans ((if_pos hu).trans ((husable back rfl rfl rfl rfl).2 hl))
  · intro marked begins run x
    have hmst : stcOf marked st = { stcOf b st with inBand := vset (stcOf b st).inBand z band } :=
      stcOf_modStc_self b st fun c => { c with inBand := vset c.inBand z band }
    have hstate : (stcOf marked st).state = stateOf b st := by rw [hmst]; rfl
    have hrm : recipeFor marked st = some rc := by
      unfold recipeFor
      rw [hmst]
      exact hr
    have hx (hb : band = true ∨ stateOf b st ≠ .ready) :
        (if band = true then startSettle st marked else clearHeat st marked) = x := by
      cases band with
      | true =>
        refine (if_pos rfl).trans ?_
        by_cases hbeg : begins (stcOf marked st)
        · rw [startSettle_begins hrm hbeg]
          refine modStc_congr st _ _ marked ?_
          rw [if_pos rfl, if_pos hbeg]
        · rw [startSettle_idle hbeg]
          refine (modStc_of_fixed ?_).symm
          rw [if_pos rfl, if_neg hbeg]
      | false =>
        refine (if_neg Bool.false_ne_true).trans ?_
        rw [clearHeat_notReady]
        · rfl
        · rw [hstate]
          exact hb.resolve_left Bool.false_ne_true
    have hxstate : stateOf x st = stateOf b st := by
      refine Eq.trans ?_ hstate
      unfold x
      rw [stateOf, stcOf_modStc_self]
      split <;> rfl
    have report : zoneReport st z band b =
        judgeGate st (if band = true then startSettle st marked else clearHeat st marked) := rfl
    refine ⟨fun hs => ?_, fun hs hb => ?_, fun hs hb => ?_⟩
    · rw [report, hx (.inr (by rw [hs]; decide))]
      rfl
    · rw [report, hx hb]
      exact judgeGate_idle (by rw [← hxstate] at hs; exact hs)
    · have both : modStc st (fun c => { c with noCycle := .none })
          (modStc st (fun c => { c with state := .preheat, settle := none, heatReady := false, closeOk := false }) marked) =
          modStc st (fun c => { c with state := .preheat, noCycle := .none }) x := by
        refine modStc_twice ?_
        rw [if_neg (by rw [hb]; exact Bool.false_ne_true)]
      rw [report, if_neg (by rw [hb]; exact Bool.false_ne_true), clearHeat_ready (hstate.trans hs), ← both]
      refine judgeGate_idle ?_
      rw [stcOf_setNoCycle, stcOf_modStc_self, stcOf_modStc_self]
      exact StationState.noConfusion
  · refine (summarise_writes hs hen hu hc ho hp).trans ?_
    cases e.platen <;> rfl

end Sys2Proof.Machine
end

section
/-! PROOFS. TABLE_WRITE (R184, R186): the loop over its entries, and the checks and effects of a write to each table. -/

namespace Sys2Proof.Machine

open Sys2Proof

/-! ### Writes that are refused (R43) -/

theorem writeZone_refused {z : Fin 32} {e : List Byte} {b : Block} (h : (writeZone z e b).1 ≠ .ok) :
    (writeZone z e b).2 = b := by
  unfold writeZone at h ⊢
  split
  next => rfl
  next x hx =>
    rw [hx] at h
    by_cases hc : (!zoneChangeAllowed b (entryOf b z) x) = true
    · simp only [if_pos hc]
    · by_cases hk : (!zoneTableOk (vset b.tab.zones z x)) = true
      · simp only [if_neg hc, if_pos hk]
      · simp only [if_neg hc, if_neg hk] at h
        exact absurd rfl h

theorem writeRecipe_refused {k : Fin 16} {e : List Byte} {b : Block} (h : (writeRecipe k e b).1 ≠ .ok) :
    (writeRecipe k e b).2 = b := by
  unfold writeRecipe at h ⊢
  split
  next => rfl
  next x hx => rw [hx] at h; exact absurd rfl h

theorem writeStep_refused {k : Fin 64} {e : List Byte} {b : Block} (h : (writeStep k e b).1 ≠ .ok) :
    (writeStep k e b).2 = b := by
  unfold writeStep at h ⊢
  split
  next => rfl
  next x hx => rw [hx] at h; exact absurd rfl h

theorem writeStation_refused {st : Station} {e : List Byte} {b : Block} (h : (writeStation st e b).1 ≠ .ok) :
    (writeStation st e b).2 = b := by
  unfold writeStation at h ⊢
  split
  next => rfl
  next x hx => rw [hx] at h; exact absurd rfl h

theorem writeLine_refused {e : List Byte} {b : Block} (h : (writeLine e b).1 ≠ .ok) : (writeLine e b).2 = b := by
  unfold writeLine at h ⊢
  split
  next => rfl
  next x hx => rw [hx] at h; exact absurd rfl h

theorem writeMap_refused {k : Fin 96} {e : List Byte} {b : Block} (h : (writeMap k e b).1 ≠ .ok) :
    (writeMap k e b).2 = b := by
  unfold writeMap at h ⊢
  split
  next => rfl
  next c hc =>
    rw [hc] at h
    by_cases ha : mapAllowed b.tab.map k c = true
    · simp only [if_pos ha] at h
      exact absurd rfl h
    · simp only [if_neg ha]

/-- An index outside the table (R43). -/
theorem writeEntry_outside {t : TableId} {i : Int} (h : i < 0 ∨ (tableCount t : Int) ≤ i) (e : List Byte) (b : Block) :
    writeEntry t i e b = (.badIndex, b) := by
  cases t with
  | zone => unfold writeEntry; rw [indexOf_eq_none (n := 32) |>.mpr h]
  | recipe => unfold writeEntry; rw [indexOf_eq_none (n := 16) |>.mpr h]
  | step => unfold writeEntry; rw [indexOf_eq_none (n := 64) |>.mpr h]
  | map => unfold writeEntry; rw [indexOf_eq_none (n := 96) |>.mpr h]
  | line =>
    change i < 0 ∨ ((1 : Nat) : Int) ≤ i at h
    exact if_neg (by omega)
  | station =>
    change i < 0 ∨ ((2 : Nat) : Int) ≤ i at h
    simp only [writeEntry]
    rcases h with h | h
    · rw [decide_eq_false (by omega : ¬ 0 ≤ i)]
      split
      next h => cases h
      next => rfl
    · rw [stationOf_eq_none (by omega)]

theorem writeEntry_zone (z : Fin 32) (e : List Byte) (b : Block) : writeEntry .zone z.val e b = writeZone z e b := by
  unfold writeEntry
  rw [indexOf_val]

theorem writeEntry_recipe (k : Fin 16) (e : List Byte) (b : Block) : writeEntry .recipe k.val e b = writeRecipe k e b := by
  unfold writeEntry
  rw [indexOf_val]

theorem writeEntry_step (k : Fin 64) (e : List Byte) (b : Block) : writeEntry .step k.val e b = writeStep k e b := by
  unfold writeEntry
  rw [indexOf_val]

theorem writeEntry_station (st : Station) (e : List Byte) (b : Block) :
    writeEntry .station (stationNum st) e b = writeStation st e b := by
  cases st <;> rfl

theorem writeEntry_line (e : List Byte) (b : Block) : writeEntry .line 0 e b = writeLine e b := by
  simp only [writeEntry, if_true]

theorem writeEntry_map (k : Fin 96) (e : List Byte) (b : Block) : writeEntry .map k.val e b = writeMap k e b := by
  unfold writeEntry
  rw [indexOf_val]

/-- A refused write changes nothing (R43). -/
theorem writeEntry_refused {t : TableId} {i : Int} {e : List Byte} {b : Block} (h : (writeEntry t i e b).1 ≠ .ok) :
    (writeEntry t i e b).2 = b := by
  by_cases hi : i < 0 ∨ (tableCount t : Int) ≤ i
  · rw [writeEntry_outside hi]
  have inside {n : Nat} (hi : ¬ (i < 0 ∨ (n : Int) ≤ i)) : ∃ k : Fin n, i = k.val :=
    ⟨⟨i.toNat, by omega⟩, by simp only; omega⟩
  cases t with
  | zone =>
    obtain ⟨z, rfl⟩ := inside (n := 32) hi
    rw [writeEntry_zone] at h ⊢
    exact writeZone_refused h
  | recipe =>
    obtain ⟨k, rfl⟩ := inside (n := 16) hi
    rw [writeEntry_recipe] at h ⊢
    exact writeRecipe_refused h
  | step =>
    obtain ⟨k, rfl⟩ := inside (n := 64) hi
    rw [writeEntry_step] at h ⊢
    exact writeStep_refused h
  | map =>
    obtain ⟨k, rfl⟩ := inside (n := 96) hi
    rw [writeEntry_map] at h ⊢
    exact writeMap_refused h
  | line =>
    have hi : ¬ (i < 0 ∨ ((1 : Nat) : Int) ≤ i) := hi
    obtain rfl : i = 0 := by omega
    rw [writeEntry_line] at h ⊢
    exact writeLine_refused h
  | station =>
    have hi : ¬ (i < 0 ∨ ((2 : Nat) : Int) ≤ i) := hi
    obtain ⟨st, rfl⟩ : ∃ st, i = stationNum st := by
      obtain rfl | rfl : i = 0 ∨ i = 1 := by omega
      exacts [⟨.a, rfl⟩, ⟨.b, rfl⟩]
    rw [writeEntry_station] at h ⊢
    exact writeStation_refused h

/-! ### The loop over the entries (R186) -/

/-- Entries that are written one after another. -/
theorem writeEntries_run {t : TableId} {d : Int} {es : List (List Byte)} {i : Int} {bs : Nat → Block}
    (hlen : ∀ e ∈ es, e.length = writtenSize t)
    (h : ∀ k e, es[k]? = some e → (writeEntry t (i + (k : Nat) * d) e (bs k)).1 = .ok ∧
      bs (k + 1) = arbitrate (writeEntry t (i + (k : Nat) * d) e (bs k)).2) (m w : Nat) (rest : List Byte) :
    writeEntries t d (es.length + m) i (es.flatten ++ rest) w (bs 0) =
      writeEntries t d m (i + es.length * d) rest (w + es.length) (bs es.length) := by
  induction es generalizing i w bs with
  | nil => simp
  | cons e es ih =>
    have hsize : e.length = writtenSize t := hlen e (by simp)
    obtain ⟨hok, hnext⟩ := h 0 e (by simp)
    rw [Nat.cast_zero, Int.zero_mul, Int.add_zero] at hok hnext
    have hrest : ∀ k e', es[k]? = some e' → (writeEntry t (i + d + (k : Nat) * d) e' (bs (k + 1))).1 = .ok ∧
        bs (k + 1 + 1) = arbitrate (writeEntry t (i + d + (k : Nat) * d) e' (bs (k + 1))).2 := fun k e' hk => by
      have hi : i + d + (k : Nat) * d = i + ((k + 1 : Nat) : Int) * d := by push_cast; ring
      rw [hi]
      exact h (k + 1) e' (by simpa using hk)
    have hn : (e :: es).length + m = (es.length + m) + 1 := by simp only [List.length_cons]; omega
    have hi : i + d + es.length * d = i + (e :: es).length * d := by simp only [List.length_cons]; push_cast; ring
    have hw : w + 1 + es.length = w + (e :: es).length := by simp only [List.length_cons]; omega
    have htake : ((e :: es).flatten ++ rest).take (writtenSize t) = e := by
      rw [List.flatten_cons, List.append_assoc, List.take_left' hsize]
    have hdrop : ((e :: es).flatten ++ rest).drop (writtenSize t) = es.flatten ++ rest := by
      rw [List.flatten_cons, List.append_assoc, List.drop_left' hsize]
    rw [hn, writeEntries, htake, hdrop, if_pos hok, ← hnext, ← hi, ← hw]
    exact ih (bs := fun k => bs (k + 1)) (fun e' he => hlen e' (by simp [he])) hrest (w + 1)

/-- The first entry that is refused stops the loop. -/
theorem writeEntries_stop {t : TableId} {d i : Int} {e : List Byte} {b : Block} (hlen : e.length = writtenSize t)
    (h : (writeEntry t i e b).1 ≠ .ok) (m w : Nat) (rest : List Byte) :
    writeEntries t d (m + 1) i (e ++ rest) w b = ((writeEntry t i e b).1, w, b) := by
  rw [writeEntries, List.take_left' hlen, if_neg h, writeEntry_refused h]

section Write

variable {q : Sender} {t : TableId} {id start stepB count : Byte} {es : List Byte} {s : State} {s1 : Block}

/-- A TABLE_WRITE of the right form ends with its owner's answer. -/
theorem finish_tableWrite (hadm : admitted (mgmtRequest q 0x02 ([id, start, stepB, count] ++ es)) s.toBlock s1)
    (htab : tableOf id.toNat = some t) (hlen : es.length = count.toNat * writtenSize t) {st : Status} {w : Nat} {b : Block}
    (h : ownTableWrite t ([id, start, stepB, count] ++ es) s1 = { status := st, body := leBytes 1 w, after := b }) :
    answered (.tableWrite q ([id, start, stepB, count] ++ es)) s q 0x02 st [byteOf w] b := by
  obtain ⟨ht, hi, hm⟩ := hadm
  have hid : field ([id, start, stepB, count] ++ es) 0 1 = id.toNat := field_one _ _
  have hcount : field ([id, start, stepB, count] ++ es) 3 1 = count.toNat := field_one count es
  have hknown : tableUnknown ([id, start, stepB, count] ++ es) = false := by
    have h5 : ¬ 5 < id.toNat := fun hlt => by
      rw [show tableOf id.toNat = none from by
        unfold tableOf
        split <;> first | omega | rfl] at htab
      cases htab
    simp only [tableUnknown, hid, h5, decide_false, Bool.and_false]
  have hform : writeForm t ([id, start, stepB, count] ++ es) = true := by
    unfold writeForm
    rw [hcount, List.length_append, hlen, Bool.and_eq_true, decide_eq_true_iff, decide_eq_true_iff]
    exact ⟨Nat.le_add_right _ _, rfl⟩
  have hexec : exec (.tableWrite q ([id, start, stepB, count] ++ es)) s = finish (whenTaken
    (mgmtRequest q 0x02 ([id, start, stepB, count] ++ es)) (serveTableWrite q ([id, start, stepB, count] ++ es))) s := rfl
  have hm : masterAdmits s1 q.src = true := hm
  unfold answered
  rw [hexec, finish_taken ht, serveTableWrite, if_neg hi, hknown, hid, htab]
  simp only [Bool.false_eq_true, if_false, hform, hm, Bool.not_true, h]
  rfl

end Write

/-! ### The Zone Table (R46) -/

/-- What checks 2 and 3 of R46 ask of the enabled zones: six drive nodes at most, and no channel twice. -/
theorem zoneTableOk_iff (t : Vector ZoneEntry 32) : zoneTableOk t = true ↔
    (∃ nodes : List Nat, nodes.length ≤ 6 ∧ ∀ k, (vget t k).enabled = true → (vget t k).driveNode ∈ nodes) ∧
      ∀ j k, j ≠ k → (vget t j).enabled = true → (vget t k).enabled = true →
        ¬ ((vget t j).driveNode = (vget t k).driveNode ∧ (vget t j).driveChannel = (vget t k).driveChannel) := by
  let used := allZones.filter fun z => (vget t z).enabled
  have mem_used (z : Fin 32) : z ∈ used ↔ (vget t z).enabled = true := by simp [used, allZones]
  have hnodup : used.Nodup := (List.nodup_finRange 32).filter _
  have hused : (allZones.map (vget t)).filter (·.enabled) = used.map (vget t) := List.filter_map
  unfold zoneTableOk
  dsimp only
  rw [hused, List.map_map, List.map_map, Bool.and_eq_true, decide_eq_true_iff, decide_eq_true_iff,
    List.nodup_map_iff_inj_on hnodup]
  refine and_congr ⟨fun h => ⟨_, h, fun k hk => ?_⟩, fun ⟨nodes, hsix, hin⟩ => ?_⟩ ⟨fun h j k hjk hj hk hsame => ?_,
    fun h j hj k hk hsame => ?_⟩
  · exact List.mem_dedup.mpr (List.mem_map.mpr ⟨k, (mem_used k).mpr hk, rfl⟩)
  · refine ((List.nodup_dedup _).subperm fun n hn => ?_).length_le.trans hsix
    obtain ⟨k, hk, rfl⟩ := List.mem_map.mp (List.mem_dedup.mp hn)
    exact hin k ((mem_used k).mp hk)
  · exact hjk (h j ((mem_used j).mpr hj) k ((mem_used k).mpr hk) (Prod.ext hsame.1 hsame.2))
  · by_contra hjk
    exact h j k hjk ((mem_used j).mp hj) ((mem_used k).mp hk) ⟨congrArg Prod.fst hsame, congrArg Prod.snd hsame⟩

/-- A change of enabled, station or platen finds the stations concerned in OFF, or there is none. -/
theorem zoneChangeAllowed_iff (s : Block) (o x : ZoneEntry) : zoneChangeAllowed s o x = true ↔
    ¬ (x.enabled ≠ o.enabled ∨ x.station ≠ o.station ∨ x.platen ≠ o.platen) ∨
      (stateOf s o.station = .off ∧ stateOf s x.station = .off) := by
  unfold zoneChangeAllowed
  simp only [Bool.or_eq_true, Bool.and_eq_true, decide_eq_true_iff, not_or, not_not, and_assoc]
  rw [@eq_comm _ o.enabled, @eq_comm _ o.station, @eq_comm _ o.platen]

section Zone

variable {s : Block} {z : Fin 32} {x : ZoneEntry}

/-- The zone at its reset values, out of band and without an allowance (R87). -/
def zoneAnew (z : Fin 32) (x : ZoneEntry) (state : ZoneState) (timer : Timer) (s : Block) : Block :=
  modStc x.station (fun c => { c with inBand := vset c.inBand z false })
    (dropAllowance z (modZone z (fun _ => { resetZone state x with timer := timer }) s))

/-- A lowered ceiling (R47, R98). -/
theorem lowerCeiling_eq (ceiling : Nat) : lowerCeiling z ceiling s =
    if (ceiledZone ceiling (zoneOf s z)).g = (zoneOf s z).g then zoneSet z (ceiledZone ceiling (zoneOf s z)) s
    else postDuty z (zoneSet z (ceiledZone ceiling (zoneOf s z)) s) := by
  unfold lowerCeiling
  dsimp only
  rw [modZone_eq_zoneSet, zoneOf_zoneSet]

theorem entryOf_putZone_self : entryOf (putZone z x s) z = x := vget_vset_self _ _ _

theorem zoneWritten_eq (o : ZoneEntry) :
    let put := putZone z x s
    let turned := if x.enabled = o.enabled then put
      else if x.enabled = true then zoneAnew z x .off (startTimer (periodOf x)) put else zoneAnew z x .disabled none put
    let lowered := if x.dutyCeiling < o.dutyCeiling then lowerCeiling z x.dutyCeiling turned else turned
    zoneWritten z o x put = if x.enabled = true ∧ o.ratedPower ≠ x.ratedPower then budgetEvent lowered else lowered := by
  have enabled : enableZone z (putZone z x s) = zoneAnew z x .off (startTimer (periodOf x)) (putZone z x s) := by
    unfold enableZone
    rw [entryOf_putZone_self]
    rfl
  have disabled : disableZone z (putZone z x s) = zoneAnew z x .disabled none (putZone z x s) := by
    unfold disableZone
    rw [entryOf_putZone_self]
    rfl
  unfold zoneWritten
  dsimp only
  rw [enabled, disabled]
  simp only [@eq_comm _ o.enabled, Bool.and_eq_true, decide_eq_true_iff]

theorem writeZone_eq {e : List Byte} (hx : zoneEntryOf e = some x) : writeZone z e s =
    if zoneChangeAllowed s (entryOf s z) x = true then
      if zoneTableOk (vset s.tab.zones z x) = true then
        (.ok, event (fun _ => zoneWritten z (entryOf s z) x (putZone z x s)) s)
      else (.badEntry, s)
    else (.notAllowed, s) := by
  simp only [writeZone, hx]
  cases zoneChangeAllowed s (entryOf s z) x
  · rfl
  · cases zoneTableOk (vset s.tab.zones z x)
    · rfl
    · rfl

end Zone

end Sys2Proof.Machine
end

section
/-! PROOFS. TABLE_WRITE: the Recipe and Step Tables, Line Settings and the Sample Map, and the statement (R48 to R56, R28 to
R30, R186). -/

namespace Sys2Proof.Machine

open Sys2Proof

section Tables

variable {s : Block}

/-! ### Recipe and Step Tables (R48 to R52) -/

theorem testStations_tab (s : Block) : (testStations s).tab = s.tab := by
  have tested (st : Station) (x : Block) : (cycleOpenTest st x).tab = x.tab :=
    congrArg Prod.fst (staleView_cycleOpenTest x st)
  unfold testStations
  split
  · exact (tested _ _).trans (tested _ _)
  · exact (tested _ _).trans (tested _ _)

theorem moveTargets_tab (st : Station) (s : Block) : (moveTargets st s).tab = s.tab :=
  congrArg Prod.fst (staleView_moveTargets s st)

theorem moveBound_eq (k : Fin 16) (st : Station) (s : Block) : moveBound k st s =
    if (stcOf s st).bound = some k ∧ isCycleState (stateOf s st) = false then event (moveTargets st) s else s := by
  unfold moveBound boundOutside thenMove
  simp only [Bool.and_eq_true, decide_eq_true_iff, Bool.not_eq_true']

theorem moveBound_tab (k : Fin 16) (st : Station) (s : Block) : (moveBound k st s).tab = s.tab := by
  rw [moveBound_eq]
  split
  · rw [event_tab, moveTargets_tab]
  · rfl

/-- With every target held, a Recipe Table write moves none. -/
theorem moveBound_held (k : Fin 16) {st : Station} (h : targetsHeld s st) : moveBound k st s = s := by
  rw [moveBound_eq, event_idle (moveTargets_targetsHeld s st h)]
  split <;> rfl

theorem moveTargets_reports (st : Station) (s : Block) : moveTargets st s = (zonesOf s st).foldl (fun y z =>
    if (zoneOf y z).inBand = true ∧ zoneTarget y z ≠ (zoneOf y z).lastTarget then
      zoneReport st z false (modZone z (fun c => { c with inBand := false }) y)
    else y) s := by
  have fold (l : List (Fin 32)) (hl : ∀ z ∈ l, (entryOf s z).station = st) (y : Block) (hy : y.tab = s.tab) :
      l.foldl reportMoved y = l.foldl (fun y z =>
        if (zoneOf y z).inBand = true ∧ zoneTarget y z ≠ (zoneOf y z).lastTarget then
          zoneReport st z false (modZone z (fun c => { c with inBand := false }) y)
        else y) y := by
    induction l generalizing y with
    | nil => rfl
    | cons z l ih =>
      have hstation : (entryOf y z).station = st := by rw [entryOf, hy]; exact hl z (by simp)
      have one : reportMoved y z = if (zoneOf y z).inBand = true ∧ zoneTarget y z ≠ (zoneOf y z).lastTarget then
          zoneReport st z false (modZone z (fun c => { c with inBand := false }) y) else y := by
        unfold reportMoved setBand
        by_cases hin : (zoneOf y z).inBand = true
        · simp only [hin, Bool.true_and, decide_eq_true_iff, true_and, Bool.true_eq_false, if_false, hstation]
        · simp [hin]
      have htab : (reportMoved y z).tab = s.tab := by
        unfold reportMoved
        split
        · exact (congrArg Prod.fst (staleView_setBand y z false)).trans hy
        · exact hy
      rw [List.foldl_cons, List.foldl_cons, ← one]
      exact ih (fun w hw => hl w (by simp [hw])) _ htab
  rw [moveTargets_foldl]
  exact fold _ (fun z hz => ((mem_zonesOf s st z).mp hz).2) s rfl

/-! ### Line Settings (R54 to R56) -/

theorem evalIfLoading_none (h : s.scu.session = none) : evalIfLoading s = s := by
  unfold evalIfLoading
  rw [h]

theorem evalIfLoading_some {u : Session} (h : s.scu.session = some u) :
    evalIfLoading s = if u.state = .loading then evaluated u s else s := by
  unfold evalIfLoading
  rw [h]
  dsimp only
  rw [evalLoading_evaluated h]

theorem evalIfLoading_keeps (s : Block) : (evalIfLoading s).scu.latestGross = s.scu.latestGross ∧
    (evalIfLoading s).tab = s.tab := by
  cases h : s.scu.session with
  | none => rw [evalIfLoading_none h]; exact ⟨rfl, rfl⟩
  | some u =>
    rw [evalIfLoading_some h]
    split
    · rw [evaluated_eq]; exact ⟨rfl, rfl⟩
    · exact ⟨rfl, rfl⟩

theorem judgeOverload_eq {ex : Bool}
    (hsome : ∀ g, s.scu.latestGross = some g → decide ((s.tab.line.capacity : Int) < g) = ex)
    (hnone : s.scu.latestGross = none → false = ex) :
    judgeOverload s = { setLevel .scaleOverload ex s with scu := { s.scu with overload := ex } } := by
  have judged : judgeOverload s = setLevel .scaleOverload ex (modScu (fun u => { u with overload := ex }) s) := by
    unfold judgeOverload
    cases h : s.scu.latestGross with
    | none => rw [← hnone h]
    | some g => rw [← hsome g h]
  rw [judged, setLevel_spec, setLevel_spec]
  rfl

theorem calibrationChanged_iff (o x : LineSettings) : calibrationChanged o x = false ↔
    o.zero = x.zero ∧ o.span = x.span ∧ o.windowCode = x.windowCode := by
  simp only [calibrationChanged, Bool.not_eq_false', Bool.and_eq_true, decide_eq_true_iff, and_assoc]

theorem writeLine_none {e : List Byte} (h : lineOf e = none) : writeLine e s = (.badEntry, s) := by
  unfold writeLine
  generalize lineOf e = l at h
  subst h
  rfl

theorem writeLine_some {e : List Byte} {x : LineSettings} (h : lineOf e = some x) :
    writeLine e s = (.ok, event (fun _ => lineWritten s.tab.line (putLine x s)) s) := by
  unfold writeLine
  generalize lineOf e = l at h
  subst h
  exact congrArg (Prod.mk Status.ok) (event_congr rfl)

/-- The window, where the write leaves the calibration or changes it (R56). -/
def recalibrated (o x : LineSettings) (s : Block) : Block :=
  if o.zero = x.zero ∧ o.span = x.span ∧ o.windowCode = x.windowCode then s else clearWindow s

theorem recalibrated_keeps (o x : LineSettings) (s : Block) :
    (recalibrated o x s).scu.latestGross = s.scu.latestGross ∧ (recalibrated o x s).tab = s.tab := by
  unfold recalibrated
  split
  · exact ⟨rfl, rfl⟩
  · exact evalIfLoading_keeps (emptied s)

theorem lineWritten_eq (o : LineSettings) : lineWritten o s =
    budgetEvent (evalIfLoading (judgeOverload (recalibrated o s.tab.line (judgeHigh s)))) := by
  have window : (if calibrationChanged o s.tab.line = true then clearWindow (judgeHigh s) else judgeHigh s) =
      recalibrated o s.tab.line (judgeHigh s) := by
    unfold recalibrated
    by_cases h : calibrationChanged o s.tab.line = false
    · rw [if_neg (by rw [h]; exact Bool.false_ne_true), if_pos ((calibrationChanged_iff _ _).mp h)]
    · rw [if_pos (Bool.not_eq_false _ |>.mp h), if_neg (mt (calibrationChanged_iff _ _).mpr h)]
  rw [← window]
  rfl

/-! ### The Sample Map (R28 to R30) -/

theorem clashes_iff {c : MapConfig} {d : Option MapConfig} : clashes c d = true ↔
    ∃ x, d = some x ∧ ((x.node = c.node ∧ x.channel = c.channel) ∨ x.target = c.target) := by
  cases d with
  | none => simp [clashes]
  | some x => simp [clashes]

theorem mapAllowed_iff {m : Vector MapEntry 96} {k : Fin 96} {c : Option MapConfig} : mapAllowed m k c = true ↔
    ∀ x, c = some x → ¬ ∃ j d, j ≠ k ∧ (vget m j).config = some d ∧
      ((d.node = x.node ∧ d.channel = x.channel) ∨ d.target = x.target) := by
  cases c with
  | none => simp [mapAllowed]
  | some c =>
    unfold mapAllowed
    simp only [List.all_eq_true, List.mem_finRange, true_implies, Bool.or_eq_true, decide_eq_true_iff, Bool.not_eq_true',
      Bool.eq_false_iff, ne_eq, clashes_iff, Option.some.injEq]
    constructor
    · rintro h x rfl ⟨j, d, hjk, hd, hsame⟩
      exact (h j).elim hjk fun hn => hn ⟨d, hd, hsame⟩
    · intro h j
      by_cases hjk : j = k
      · exact .inl hjk
      · exact .inr fun ⟨d, hd, hsame⟩ => h c rfl ⟨j, d, hjk, hd, hsame⟩

theorem writeMap_none {k : Fin 96} {e : List Byte} (h : mapConfigOf e = none) : writeMap k e s = (.badEntry, s) := by
  simp only [writeMap, h]

theorem writeMap_some {k : Fin 96} {e : List Byte} {c : Option MapConfig} (h : mapConfigOf e = some c) :
    writeMap k e s =
      if mapAllowed s.tab.map k c = true then (.ok, event (rewriteEntry k c) s) else (.badEntry, s) := by
  simp only [writeMap, h]

/-- A rewritten entry, SENSOR_STALE judged (R30). -/
theorem rewriteEntry_eq {k : Fin 96} {c : Option MapConfig} {stale : Bool}
    (h : stale = true ↔ ∃ j, (vget (vset s.tab.map k (neverEntry c)) j).config ≠ none ∧
      (vget (vset s.tab.map k (neverEntry c)) j).freshness = .stale) :
    let put := setLevel .sensorStale stale { s with tab := { s.tab with map := vset s.tab.map k (neverEntry c) } }
    (∀ d, (vget s.tab.map k).config = some d → (vget s.tab.map k).freshness = .fresh →
      rewriteEntry k c s = deliverStale d.target put) ∧
    ((vget s.tab.map k).config = none ∨ (vget s.tab.map k).freshness ≠ .fresh → rewriteEntry k c s = put) := by
  intro put
  have judged : judgeStale (modEntry k (fun _ => neverEntry c) s) = put :=
    judgeStale_eq (s := { s with tab := { s.tab with map := vset s.tab.map k (neverEntry c) } }) h
  unfold rewriteEntry
  dsimp only
  rw [judged]
  refine ⟨fun d hd hf => ?_, fun ho => ?_⟩
  · rw [hd]
    exact if_pos hf
  · cases hd : (vget s.tab.map k).config with
    | none => rfl
    | some d => exact if_neg (ho.resolve_left (by rw [hd]; exact Option.some_ne_none d))

end Tables

/-! ### The reply (R184, R186) -/

section Reply

variable {q : Sender} {t : TableId} {id start stepB count : Byte} {s : State} {s1 : Block}

theorem stepByte_none {b : Byte} (h1 : b ≠ 0x01) (h2 : b ≠ 0xFF) : stepByte b.toNat = none := by
  have h1 : b.toNat ≠ 1 := fun h => h1 (BitVec.eq_of_toNat_eq h)
  have h2 : b.toNat ≠ 255 := fun h => h2 (BitVec.eq_of_toNat_eq h)
  unfold stepByte
  split
  · exact absurd ‹_› h1
  · exact absurd ‹_› h2
  · rfl

theorem tableWrite_badStep {es : List Byte}
    (hadm : admitted (mgmtRequest q 0x02 ([id, start, stepB, count] ++ es)) s.toBlock s1) (htab : tableOf id.toNat = some t)
    (hlen : es.length = count.toNat * writtenSize t) (h1 : stepB ≠ 0x01) (h2 : stepB ≠ 0xFF) :
    answered (.tableWrite q ([id, start, stepB, count] ++ es)) s q 0x02 .badRequest [0] s1 := by
  have hstep : field ([id, start, stepB, count] ++ es) 2 1 = stepB.toNat := field_one stepB (count :: es)
  refine finish_tableWrite (w := 0) hadm htab hlen ?_
  unfold ownTableWrite
  rw [hstep, stepByte_none h1 h2]

variable {d : Int} {es : List (List Byte)}

theorem flatten_length {n : Nat} (h : ∀ e ∈ es, e.length = n) : es.flatten.length = es.length * n := by
  induction es with
  | nil => simp
  | cons e es ih =>
    rw [List.flatten_cons, List.length_append, h e (by simp), ih fun e' he => h e' (by simp [he]), List.length_cons]
    ring

/-- What a TABLE_WRITE whose step is +1 or −1 answers. -/
theorem tableWrite_steps (hadm : admitted (mgmtRequest q 0x02 ([id, start, stepB, count] ++ es.flatten)) s.toBlock s1)
    (htab : tableOf id.toNat = some t) (hd : stepByte stepB.toNat = some d) (hn : es.length = count.toNat)
    (hlen : ∀ e ∈ es, e.length = writtenSize t) :
    (s1.mga.image = .storing →
      answered (.tableWrite q ([id, start, stepB, count] ++ es.flatten)) s q 0x02 .busy [0] s1) ∧
    (s1.mga.image ≠ .storing → ∀ st w b, writeEntries t d es.length start.toNat es.flatten 0 s1 = (st, w, b) →
      answered (.tableWrite q ([id, start, stepB, count] ++ es.flatten)) s q 0x02 st [byteOf w] b) := by
  have hstep : field ([id, start, stepB, count] ++ es.flatten) 2 1 = stepB.toNat := field_one stepB (count :: es.flatten)
  have hcount : field ([id, start, stepB, count] ++ es.flatten) 3 1 = count.toNat := field_one count es.flatten
  have hstart : field ([id, start, stepB, count] ++ es.flatten) 1 1 = start.toNat :=
    field_one start (stepB :: count :: es.flatten)
  have hsize : es.flatten.length = count.toNat * writtenSize t := by rw [flatten_length hlen, hn]
  refine ⟨fun hi => finish_tableWrite (w := 0) hadm htab hsize ?_,
    fun hi st w b h => finish_tableWrite hadm htab hsize ?_⟩
  · unfold ownTableWrite
    rw [hstep, hd]
    exact if_pos hi
  · unfold ownTableWrite
    rw [hstep, hd, hcount, hstart, ← hn]
    refine (if_neg hi).trans ?_
    rw [show ([id, start, stepB, count] ++ es.flatten).drop 4 = es.flatten from rfl, h]

end Reply

/-- The loop up to the first entry that is refused. -/
theorem writeEntries_refused {t : TableId} {d i : Int} {es : List (List Byte)} {bs : Nat → Block} {n : Nat} {e : List Byte}
    (hlen : ∀ e ∈ es, e.length = writtenSize t)
    (hbs : ∀ (k : Nat) e, es[k]? = some e → bs (k + 1) = arbitrate (writeEntry t (i + k * d) e (bs k)).2)
    (he : es[n]? = some e) (hne : (writeEntry t (i + n * d) e (bs n)).1 ≠ .ok)
    (hok : ∀ (k : Nat) e', k < n → es[k]? = some e' → (writeEntry t (i + k * d) e' (bs k)).1 = .ok) :
    writeEntries t d es.length i es.flatten 0 (bs 0) = ((writeEntry t (i + n * d) e (bs n)).1, n, bs n) := by
  obtain ⟨hn, rfl⟩ := List.getElem?_eq_some_iff.mp he
  have parts : es.take n ++ es[n] :: es.drop (n + 1) = es := by
    rw [List.getElem_cons_drop, List.take_append_drop]
  have htake : (es.take n).length = n := List.length_take_of_le hn.le
  have hcount : es.length = (es.take n).length + ((es.drop (n + 1)).length + 1) := by
    rw [htake, List.length_drop]
    omega
  have hflat : es.flatten = (es.take n).flatten ++ (es[n] ++ (es.drop (n + 1)).flatten) := by
    rw [← List.flatten_cons, ← List.flatten_append, parts]
  have run := writeEntries_run (t := t) (d := d) (i := i) (bs := bs) (fun e he => hlen e (List.mem_of_mem_take he))
    (fun k e' hk => by
      rw [List.getElem?_take] at hk
      split at hk
      · exact ⟨hok k e' ‹_› hk, hbs k e' hk⟩
      · cases hk) ((es.drop (n + 1)).length + 1) 0 (es[n] ++ (es.drop (n + 1)).flatten)
  rw [hcount, hflat, run, htake, Nat.zero_add]
  exact writeEntries_stop (hlen _ (List.getElem_mem hn)) hne _ _ _

/-- Settles O52: the loop over the entries, and the checks and effects of each table's write. -/
theorem tableWrite : Obligations.TableWrite := by
  refine ⟨?_, ?_, fun e b => ?_⟩
  · intro q t id start stepB count es s s1 body hadm htab hlen h1 h2
    exact tableWrite_badStep hadm htab hlen h1 h2
  · intro q t id start stepB count d es s s1 body at_ hadm htab hd hn hlen
    obtain ⟨storing, runs⟩ := tableWrite_steps hadm htab hd hn hlen
    refine ⟨storing, fun hi bs h0 hbs => ⟨fun hok => ?_, fun n e st he hst hne hok => ?_⟩⟩
    · have run := writeEntries_run (i := (start.toNat : Int)) (bs := bs) hlen
        (fun k e he => ⟨hok k e he, hbs k e he⟩) 0 0 []
      rw [Nat.add_zero, List.append_nil, Nat.zero_add, h0] at run
      have answers := runs hi .ok es.length (bs es.length) run
      rw [hn, byteOf_toNat] at answers
      rw [hn]
      exact answers
    · subst hst
      refine runs hi _ n (bs n) ?_
      rw [← h0]
      exact writeEntries_refused hlen hbs he hne hok
  refine ⟨fun t i => ⟨writeEntry_refused, fun h => writeEntry_outside h e b⟩, fun z => ?_, fun k => ?_,
    fun st => moveTargets_reports st b, fun k => ?_, fun st => ?_, ⟨fun h => ?_, fun x hx => ?_⟩, fun k => ?_⟩
  · intro w o
    have hw : w = writeZone z e b := writeEntry_zone z e b
    refine ⟨fun h => ?_, fun x hx => ?_⟩
    · rw [hw, writeZone, h]
    intro changes offs zones fits put anew turned k low capped lowered
    have hallowed : zoneChangeAllowed b o x = true ↔ (¬ changes ∨ offs) := zoneChangeAllowed_iff b o x
    have hfits : zoneTableOk zones = true ↔ fits := zoneTableOk_iff zones
    have hwrite := hw.trans (writeZone_eq hx)
    refine ⟨fun hc ho => hwrite.trans (if_neg fun h => ?_), fun hc hf => hwrite.trans ?_, fun hc hf => hwrite.trans ?_⟩
    · exact (hallowed.mp h).elim (fun hn => hn hc) ho
    · exact (if_pos (hallowed.mpr hc)).trans (if_neg (mt hfits.mp hf))
    · refine (if_pos (hallowed.mpr hc)).trans ((if_pos (hfits.mpr hf)).trans ?_)
      have hlowered : lowerCeiling z x.dutyCeiling turned = if min k.g low = k.g then modZone z (fun _ => capped) turned
          else postDuty z (modZone z (fun _ => capped) turned) := lowerCeiling_eq x.dutyCeiling
      have hl : lowered = if x.dutyCeiling < o.dutyCeiling then lowerCeiling z x.dutyCeiling turned else turned := by
        rw [hlowered]
      have hz := zoneWritten_eq (s := b) (z := z) (x := x) o
      rw [hl]
      exact congrArg (Prod.mk Status.ok) (event_congr hz)
  · intro w
    have hw : w = writeRecipe k e b := writeEntry_recipe k e b
    refine ⟨fun h => ?_, fun x hx => ?_⟩
    · rw [hw, writeRecipe, h]
    intro put moved
    have hmoved (st : Station) (y : Block) : moved st y = moveBound k st y := (moveBound_eq k st y).symm
    have hput : w = (.ok, moveBound k .b (moveBound k .a (event (fun _ => testStations put) b))) := by
      rw [hw, writeRecipe, hx]
      exact congrArg (fun y => (Status.ok, moveBound k .b (moveBound k .a y))) (event_congr rfl)
    refine ⟨?_, ?_, fun hr hn hheld => ?_⟩
    · rw [hmoved, hmoved, hput]
    · rw [hput, moveBound_tab, moveBound_tab, event_tab, testStations_tab]
    · have idle : event (fun _ => testStations put) b = put := event_testStations_idle (x := put) rfl hr hn
      rw [hput, idle, moveBound_held k (hheld .a), moveBound_held k (hheld .b)]
  · intro w
    have hw : w = writeStep k e b := writeEntry_step k e b
    refine ⟨fun h => ?_, fun x hx => ?_⟩
    · rw [hw, writeStep, h]
    intro put
    have hput : w = (.ok, event (fun _ => testStations put) b) := by
      rw [hw, writeStep, hx]
      exact congrArg (Prod.mk Status.ok) (event_congr rfl)
    refine ⟨hput, ?_, fun hr hn => ?_⟩
    · rw [hput, event_tab, testStations_tab]
    · rw [hput]
      exact event_testStations_idle (x := put) rfl hr hn
  · refine (writeEntry_station st e b).trans ?_
    unfold writeStation
    cases stationEntryOf e <;> rfl
  · exact (writeEntry_line e b).trans (writeLine_none h)
  · intro o ev excess put y
    have hev (u : Block) : evalIfLoading u = ev u := by
      cases h : u.scu.session with
      | none => rw [evalIfLoading_none h]; simp only [ev, h]
      | some v => rw [evalIfLoading_some h]; simp only [ev, h]
    have hput : judgeHigh (putLine x b) = put := rfl
    have hscu : put.scu = b.scu := by unfold put; rw [setLevel_spec]
    have hy : recalibrated o x put = y := by
      unfold recalibrated
      rw [show clearWindow put = ev (emptied put) from hev (emptied put), emptied, hscu]
    have hover : judgeOverload y =
        { setLevel .scaleOverload (excess b) y with scu := { y.scu with overload := excess b } } := by
      obtain ⟨hgross, htab⟩ := recalibrated_keeps o x put
      rw [hy] at hgross htab
      have hgross : y.scu.latestGross = b.scu.latestGross := hgross.trans (congrArg Scu.latestGross hscu)
      have hline : y.tab.line = x := by rw [htab]; unfold put; rw [setLevel_spec]
      refine judgeOverload_eq (fun g hg => ?_) fun hn => ?_
      · rw [hgross] at hg
        simp only [excess, hg, hline]
      · rw [hgross] at hn
        simp only [excess, hn]
    refine (writeEntry_line e b).trans ((writeLine_some hx).trans (congrArg (Prod.mk Status.ok) (event_congr ?_)))
    rw [lineWritten_eq]
    change budgetEvent (evalIfLoading (judgeOverload (recalibrated o x (judgeHigh (putLine x b))))) = _
    rw [hput, hy, hover, hev]
  · intro w old clash
    have hw : w = writeMap k e b := writeEntry_map k e b
    refine ⟨fun h => hw.trans (writeMap_none h), fun x hx hclash => ?_, fun c hc hno => ?_⟩
    · rw [hw, writeMap_some hx]
      exact if_neg fun h => mapAllowed_iff.mp h x rfl hclash
    intro map stale hstale put
    have hw : w = (.ok, event (rewriteEntry k c) b) := by
      rw [hw, writeMap_some hc]
      exact if_pos (mapAllowed_iff.mpr hno)
    obtain ⟨fresh, other⟩ := rewriteEntry_eq (s := b) (k := k) (c := c) hstale
    refine ⟨fun d hd hf => ?_, fun ho => ?_⟩
    · rw [hw, event_congr (g := fun _ => deliverStale d.target put) (fresh d hd hf)]
    · rw [hw, event_of_stc _ _ (by rw [other ho]; exact stc_setLevel _ _ _), other ho]
      rfl

end Sys2Proof.Machine
end
